-- ==== Sys2Proof/Word.lean ====
section
/-! DEFINITION. The word types of the Deck Keystream Engine (DKE): 00_scope.md rules R4 and R5. -/

namespace Sys2Proof

/-- A card value, a slot index, a letter index or a 5-bit register: CARD_W = 5 (R5, R10). -/
abbrev Card := BitVec 5

/-- The 8-bit operand field of a command and the 8-bit data field of a response (R61, R62). -/
abbrev Byte := BitVec 8

/-- A command word: CMD_W = 16 (R5, R61). -/
abbrev CmdWord := BitVec 16

/-- A response word: RSP_W = 16 (R5, R62). -/
abbrev RspWord := BitVec 16

/-- The deck buffer, the 28 slots `DECK[0]` to `DECK[27]` of 5 bits each (R10, R28). -/
abbrev Deck := Vector Card 28

end Sys2Proof
end

