-- ==== Sys2Proof/Syntax.lean ====
section
/-! DEFINITION. The 18 commands of 30_encoding.md rule R63, one constructor per row of
opcode_table.json. An operand is the unsigned 8-bit value `cmd_data[7:0]` (R61, R64). -/

namespace Sys2Proof

/-- A well-encoded command (R63). The nine `zero`-operand commands carry no operand: their
operand field is reserved and must be `0x00` (R65). -/
inductive Instr where
  /-- NOP, no operation (R150). -/
  | nop
  /-- SRST, software reset (R151). -/
  | srst
  /-- RDR r, read control or status register `r` (R152). -/
  | rdr (r : Byte)
  /-- LOAD, begin a deck load (R81). -/
  | load
  /-- CARD v, supply the next card (R82). -/
  | card (v : Byte)
  /-- JA, run the JokerA micro-operation once (R112). -/
  | ja
  /-- JB, run the JokerB micro-operation once (R113). -/
  | jb
  /-- TC, run the TripleCut micro-operation once (R114). -/
  | tc
  /-- CC, run the CountCut micro-operation once (R115). -/
  | cc
  /-- EX, run the extraction once (R116). -/
  | ex
  /-- KEY, produce the next keystream value (R126). -/
  | key
  /-- ENCI i, encrypt the letter index `i` (R134). -/
  | enci (i : Byte)
  /-- DECI i, decrypt the letter index `i` (R135). -/
  | deci (i : Byte)
  /-- ENCC c, encrypt the character `c` (R136). -/
  | encc (c : Byte)
  /-- DECC c, decrypt the character `c` (R137). -/
  | decc (c : Byte)
  /-- RDP p, read the card at position `p` (R90). -/
  | rdp (p : Byte)
  /-- RDS s, read the card in slot `s` (R91). -/
  | rds (s : Byte)
  /-- FIND v, find the position of card `v` (R92). -/
  | find (v : Byte)
  deriving DecidableEq, Repr

end Sys2Proof
end

