-- ==== Sys2Proof/WellFormed.lean ====
section
/-! DEFINITION. What can be checked of a command as syntax. Every term of `Instr` is encodable,
because its operand is an 8-bit value by type; what remains is the LEGAL RANGE that 30_encoding.md
rule R64 gives the operand of each command. A command outside its range is still a command with a
meaning (an error response, or for CARD a configuration error): the machine never refuses it. -/

namespace Sys2Proof

/-- The operand lies in `lo .. hi`, both included, as an unsigned number. -/
def legalBetween (lo hi : Nat) (b : Byte) : Bool := decide (lo ≤ b.toNat) && decide (b.toNat ≤ hi)

/-- The legal range of R64's table, one line per row of it; ENCC admits any operand. -/
def Instr.WellFormed : Instr → Bool
  | .nop => true
  | .srst => true
  | .rdr r => legalBetween 0 5 r
  | .load => true
  | .card v => legalBetween 1 28 v
  | .ja => true
  | .jb => true
  | .tc => true
  | .cc => true
  | .ex => true
  | .key => true
  | .enci i => legalBetween 1 26 i
  | .deci i => legalBetween 1 26 i
  | .encc _ => true
  | .decc c => legalBetween 0x41 0x5A c
  | .rdp p => legalBetween 1 28 p
  | .rds s => legalBetween 0 27 s
  | .find v => legalBetween 1 28 v

end Sys2Proof
end

