-- ==== Sys2Proof/Decode.lean ====
section
/-! DEFINITION. Decoding and encoding of command words: 30_encoding.md rules R61, R63 and R65 and
opcode_table.json. Decoding is total on the 65536 words and rejects by name. -/

namespace Sys2Proof

/-- Why a command word is illegal (R65). -/
inductive DecodeError where
  /-- The opcode is none of the 18 of R63. -/
  | unknownOpcode (opcode : Byte)
  /-- A `zero`-operand command whose operand field is not `0x00`. -/
  | reservedOperand (opcode operand : Byte)
  deriving DecidableEq, Repr

/-- `opcode = cmd_data[15:8]` (R61). -/
def opcodeField (w : CmdWord) : Byte := w.extractLsb' 8 8

/-- `operand = cmd_data[7:0]` (R61). -/
def operandField (w : CmdWord) : Byte := w.extractLsb' 0 8

/-- A `zero`-operand command: legal only with the operand field `0x00` (R65). -/
def zeroForm (i : Instr) (w : CmdWord) : Except DecodeError Instr :=
  if operandField w = 0#8 then .ok i
  else .error (.reservedOperand (opcodeField w) (operandField w))

/-- The decoder: all 8 opcode bits are compared (R63), reserved words are illegal (R65). -/
def decode (w : CmdWord) : Except DecodeError Instr :=
  match opcodeField w with
  | 0x00#8 => zeroForm .nop w
  | 0x01#8 => zeroForm .srst w
  | 0x02#8 => .ok (.rdr (operandField w))
  | 0x10#8 => zeroForm .load w
  | 0x11#8 => .ok (.card (operandField w))
  | 0x20#8 => zeroForm .ja w
  | 0x21#8 => zeroForm .jb w
  | 0x22#8 => zeroForm .tc w
  | 0x23#8 => zeroForm .cc w
  | 0x24#8 => zeroForm .ex w
  | 0x30#8 => zeroForm .key w
  | 0x40#8 => .ok (.enci (operandField w))
  | 0x41#8 => .ok (.deci (operandField w))
  | 0x42#8 => .ok (.encc (operandField w))
  | 0x43#8 => .ok (.decc (operandField w))
  | 0x50#8 => .ok (.rdp (operandField w))
  | 0x51#8 => .ok (.rds (operandField w))
  | 0x52#8 => .ok (.find (operandField w))
  | op => .error (.unknownOpcode op)

/-- The opcode of each command (R63). -/
def Instr.opcode : Instr → Byte
  | .nop => 0x00#8
  | .srst => 0x01#8
  | .rdr _ => 0x02#8
  | .load => 0x10#8
  | .card _ => 0x11#8
  | .ja => 0x20#8
  | .jb => 0x21#8
  | .tc => 0x22#8
  | .cc => 0x23#8
  | .ex => 0x24#8
  | .key => 0x30#8
  | .enci _ => 0x40#8
  | .deci _ => 0x41#8
  | .encc _ => 0x42#8
  | .decc _ => 0x43#8
  | .rdp _ => 0x50#8
  | .rds _ => 0x51#8
  | .find _ => 0x52#8

/-- The operand field of each command, `0x00` for the `zero`-operand commands (R67). -/
def Instr.operand : Instr → Byte
  | .nop => 0#8
  | .srst => 0#8
  | .rdr r => r
  | .load => 0#8
  | .card v => v
  | .ja => 0#8
  | .jb => 0#8
  | .tc => 0#8
  | .cc => 0#8
  | .ex => 0#8
  | .key => 0#8
  | .enci i => i
  | .deci i => i
  | .encc c => c
  | .decc c => c
  | .rdp p => p
  | .rds s => s
  | .find v => v

/-- The encoder: `{opcode, operand}` (R61, R67). -/
def encode (i : Instr) : CmdWord := i.opcode ++ i.operand

/-- The command word of a table row of `nbits` bits: every bit above `nbits` is 0. -/
def tableWord (nbits w : Nat) : CmdWord := BitVec.ofNat 16 (w % 2 ^ nbits)

/-- What the decoder reads from a table row's word; every command is one whole 16-bit word
(R66), so there is no byte order (R46). -/
def decodeTableWord (nbits w : Nat) : Option Instr :=
  match decode (tableWord nbits w) with
  | .ok i => some i
  | .error _ => none

end Sys2Proof
end

