-- ==== Sys2Proof/Config.lean ====
section
/-! DEFINITION. The constants of 00_scope.md rules R4 and R5, and the one free value of the DKE. -/

namespace Sys2Proof

/-- JOKER_A, the first sentinel (R4). -/
def Config.jokerA : Card := 27#5

/-- JOKER_B, the second sentinel (R4). -/
def Config.jokerB : Card := 28#5

/-- LOAD_ANCHOR, the value of ANCHOR after a complete load and after reset (R5, R181). -/
def Config.loadAnchor : Card := 27#5

/-- The largest value of the RETRY counter, where it saturates (R5, R23). -/
def Config.retryMax : Byte := 255#8

/-- FREE VALUE. The contents of the 28 slots after the hardware reset event, which 70_reset_and_hazards.md
rule R181 leaves unspecified ("each slot may hold any 5-bit value, or its content from before the
reset"). It has no body: nothing can be proved of it. The argument is the number of the reset. Log
entry 2. -/
opaque Config.resetDeck : Nat → Deck

end Sys2Proof
end

