-- ==== Sys2Proof/Machine/State.lean ====
section
/-! DEFINITION. The state of the DKE (10_state.md section 1), the response port (60_exceptions.md,
70_reset_and_hazards.md rule R185), what the host is about to do at the ports (00_scope.md rule R6), and
the reset state (70_reset_and_hazards.md rule R181). -/

namespace Sys2Proof.Machine

/-- PHASE, the sequencer's control state (R14). The reserved code 6 is left out of the type, as
93_implementation_defined.md U7 allows: no rule writes it. -/
inductive Phase where
  /-- 0: no micro-operation pending. -/
  | idle
  /-- 1: JokerA is next. -/
  | ja
  /-- 2: JokerB is next. -/
  | jb
  /-- 3: TripleCut is next. -/
  | tc
  /-- 4: CountCut is next. -/
  | cc
  /-- 5: extraction is next. -/
  | ex
  /-- 7: structural corruption was detected. -/
  | fault
  deriving DecidableEq, Repr

/-- MODE, what the loop completion does with the key (R24). The unassigned code 3 is left out of
the type, as 93_implementation_defined.md U8 allows: no rule writes it. -/
inductive Mode where
  /-- 0: return the key. -/
  | keyonly
  /-- 1: map LETTER with `enc`. -/
  | enc
  /-- 2: map LETTER with `dec`. -/
  | dec
  deriving DecidableEq, Repr

/-- FORM, the form of a mapper response (R24). -/
inductive Form where
  /-- 0: a letter index. -/
  | index
  /-- 1: an ASCII upper-case character. -/
  | character
  deriving DecidableEq, Repr

/-- One act of the host at the ports: exactly the three things 00_scope.md rule R6 lets it do,
and letting one transition of the engine pass. -/
inductive PortEvent where
  /-- `rst = 1`: assert reset at this step boundary (R180, R182). -/
  | rst
  /-- `cmd_valid = 1` with `cmd_data = w`, held until the word is accepted (R60). -/
  | offer (w : CmdWord)
  /-- `rsp_ready = 1`, held until a response is taken (R60). -/
  | take
  /-- The host does nothing during one transition. -/
  | wait
  deriving DecidableEq, Repr

/-- The whole state. -/
structure State where
  /-- `DECK[0..27]` (R10). -/
  deck : Deck
  /-- ANCHOR, the slot index of the anchor card (R13). -/
  anchor : Card
  /-- PHASE (R14). -/
  phase : Phase
  /-- FATAL (R15). -/
  fatal : Bool
  /-- LOADING (R16). -/
  loading : Bool
  /-- DECK_VALID (R17). -/
  deckValid : Bool
  /-- KEY_VALID (R18). -/
  keyValid : Bool
  /-- LASTERR (R19). -/
  lastErr : BitVec 4
  /-- LDCNT (R20). -/
  ldcnt : Card
  /-- KEY (R21). -/
  key : Card
  /-- CAND (R22). -/
  cand : Card
  /-- RETRY (R23). -/
  retry : Byte
  /-- MODE (R24). -/
  mode : Mode
  /-- FORM (R24). -/
  form : Form
  /-- LETTER (R24). -/
  letter : Card
  /-- The response port: the response waiting to be taken, if any (R60, R185). -/
  rsp : Option RspWord
  /-- What the host does at the ports from now on, in order (R6, R60; log entry 3). -/
  inputs : List PortEvent
  /-- The model's own counter of hardware resets, the argument of the free value
  `Config.resetDeck` (log entry 2). -/
  resets : Nat
  deriving DecidableEq, Repr

/-- Why the model stops with a fault. -/
inductive Fault where
  /-- Raised by CARD only, when LOADING = 1 while LDCNT is 28 or more: the slot `DECK[LDCNT]` that
  R82 would write does not exist (R49). No reachable state has it. Safe: the model stops where the
  spec gives no effect. Log entry 5. -/
  | noSuchSlot
  deriving DecidableEq, Repr

/-- Why the model refuses an instruction. -/
inductive Refusal where
  /-- Raised by an arm of `exec` whose instruction has no meaning yet; no arm is left so. Safe. -/
  | notModelled (mnemonic : String)
  deriving DecidableEq, Repr

/-- The outcome of one step of the DKE. -/
abbrev Result := Host.Outcome State Fault Refusal

/-- The reset state (R181). DECK is unspecified there; all zero is the model's choice, which
R181 offers and no response depends on (log entry 1). -/
def State.reset : State where
  deck := Vector.replicate 28 0#5
  anchor := Config.loadAnchor
  phase := .idle
  fatal := false
  loading := false
  deckValid := false
  keyValid := false
  lastErr := 0#4
  ldcnt := 0#5
  key := 0#5
  cand := 0#5
  retry := 0#8
  mode := .keyonly
  form := .index
  letter := 0#5
  rsp := none
  inputs := []
  resets := 0

end Sys2Proof.Machine
end

