-- ==== Sys2Proof/Machine/Flags.lean ====
section
/-! DEFINITION. Status codes, the response word, STATUS, and the encodings of the control registers:
60_exceptions.md rules R160 and R161, 30_encoding.md rule R62, 10_state.md rules R14, R24 and R25. -/

namespace Sys2Proof.Machine

/-- The status codes of R160. Codes 3 to 7 are never produced and have no constructor. -/
inductive Status where
  | ok
  | dropped
  | sentinel
  | errIllegal
  | errOperand
  | errNodeck
  | errCfgRange
  | errCfgDup
  | errCfgLen
  | errCorrupt
  | errFatal
  deriving DecidableEq, Repr

/-- The 4-bit code of a status (R160). -/
def Status.code : Status → BitVec 4
  | .ok => 0x0#4
  | .dropped => 0x1#4
  | .sentinel => 0x2#4
  | .errIllegal => 0x8#4
  | .errOperand => 0x9#4
  | .errNodeck => 0xA#4
  | .errCfgRange => 0xB#4
  | .errCfgDup => 0xC#4
  | .errCfgLen => 0xD#4
  | .errCorrupt => 0xE#4
  | .errFatal => 0xF#4

/-- Codes 8 to 15 are errors (R160). -/
def Status.isError (st : Status) : Bool := decide (8 ≤ st.code.toNat)

/-- The response word `{status, 0b0000, data}` (R62). -/
def rspWord (st : Status) (data : Byte) : RspWord := st.code ++ (0#4 ++ data)

/-- The status field of a response word (R62). -/
def statusField (w : RspWord) : BitVec 4 := w.extractLsb' 12 4

/-- The data field of a response word (R62). -/
def dataField (w : RspWord) : Byte := w.extractLsb' 0 8

/-- LASTERR after a response with status `st` (R161). -/
def nextLastErr (st : Status) (old : BitVec 4) : BitVec 4 := if st.isError then st.code else old

/-- STATUS = {FATAL, LOADING, DECK_VALID, KEY_VALID, LASTERR} (R25). -/
def State.statusByte (s : State) : Byte :=
  BitVec.ofBool s.fatal ++ (BitVec.ofBool s.loading ++ (BitVec.ofBool s.deckValid ++
    (BitVec.ofBool s.keyValid ++ s.lastErr)))

/-- The 3-bit encoding of PHASE (R14). -/
def Phase.code : Phase → BitVec 3
  | .idle => 0#3
  | .ja => 1#3
  | .jb => 2#3
  | .tc => 3#3
  | .cc => 4#3
  | .ex => 5#3
  | .fault => 7#3

/-- The 2-bit encoding of MODE (R24). -/
def Mode.code : Mode → BitVec 2
  | .keyonly => 0#2
  | .enc => 1#2
  | .dec => 2#2

/-- The 1-bit encoding of FORM (R24). -/
def Form.code : Form → BitVec 1
  | .index => 0#1
  | .character => 1#1

/-- The RETRY counter after one more discarded candidate: `min(255, RETRY + 1)` (R23, R123). -/
def retrySucc (r : Byte) : Byte := if r = Config.retryMax then Config.retryMax else r + 1#8

end Sys2Proof.Machine
end

