-- ==== Sys2Proof/Machine/Operands.lean ====
section
/-! DEFINITION. The operand checks of 30_encoding.md rule R64 and 60_exceptions.md rule R164, and the
characters of 44_letter_mapper.md rule R133. An operand is narrowed to 5 bits only after its range
check has passed (R64). -/

namespace Sys2Proof.Machine

/-- The operand lies in `lo .. hi`. -/
def inRange (lo hi : Nat) (b : Byte) : Bool := decide (lo ≤ b.toNat ∧ b.toNat ≤ hi)

/-- A card value or a position, 1..28 (CARD, RDP, FIND). -/
def isCardOperand (b : Byte) : Bool := inRange 1 28 b

/-- A slot index, 0..27 (RDS). -/
def isSlotOperand (b : Byte) : Bool := inRange 0 27 b

/-- A letter index, 1..26 (ENCI, DECI). -/
def isIndexOperand (b : Byte) : Bool := inRange 1 26 b

/-- The code of an upper-case letter, `0x41..0x5A` (R133). -/
def isUpper (c : Byte) : Bool := inRange 0x41 0x5A c

/-- The code of a lower-case letter, `0x61..0x7A` (R133). -/
def isLower (c : Byte) : Bool := inRange 0x61 0x7A c

/-- The code of a letter (R133). -/
def isLetter (c : Byte) : Bool := isUpper c || isLower c

/-- `w[4:0]` of an 8-bit operand that has passed its range check (R64). -/
def narrow (b : Byte) : Card := b.setWidth 5

/-- `zext_8` of a 5-bit value. -/
def zext (c : Card) : Byte := c.setWidth 8

/-- `index(c)`: 1..26 for a letter of either case (R133). -/
def letterIndex (c : Byte) : Card := narrow (if isUpper c then c - 0x40#8 else c - 0x60#8)

/-- `char(i) = 0x40 + i` (R133). -/
def charOf (i : Card) : Byte := 0x40#8 + zext i

end Sys2Proof.Machine
end

