-- ==== Sys2Proof/Machine/Ops.lean ====
section
/-! DEFINITION. The shared operations: addressing the deck (20_memory.md), producing a response and the
gates (60_exceptions.md rules R161 and R163), the Corrupt fault (R165), reset (70_reset_and_hazards.md
rules R180 to R182) and the entry of the key loop (43_key_loop.md rule R121). -/

namespace Sys2Proof.Machine

/-! ### The deck as memory -/

/-- `slot(p) = (ANCHOR + p) mod 28` (R41). -/
def slotOf (anchor : Card) (p : Nat) : Fin 28 := ⟨(anchor.toNat + p) % 28, Nat.mod_lt _ (by decide)⟩

/-- `succ(s) = (s + 1) mod 28`, the next slot in the cyclic order (R10). -/
def succSlot (s : Fin 28) : Fin 28 := ⟨(s.val + 1) % 28, Nat.mod_lt _ (by decide)⟩

/-- `pos(s) = ((s - ANCHOR - 1) mod 28) + 1` on integers (R41). -/
def posOf (anchor : Card) (s : Fin 28) : Nat :=
  (((s.val : Int) - (anchor.toNat : Int) - 1) % 28).toNat + 1

/-- `L[p] = DECK[slot(p)]`, the card at position `p` (R41). -/
def State.cardAt (s : State) (p : Nat) : Card := s.deck[slotOf s.anchor p]

/-- The linear view `[L[1], ..., L[28]]` (R41). -/
def State.linear (s : State) : List Card := (List.range' 1 28).map s.cardAt

/-- `find(v)`: the least `p` in `1..28` with `L[p] = v`, or `none` (R44). -/
def State.findCard (s : State) (v : Card) : Option Nat :=
  (List.range' 1 28).find? (fun p => s.cardAt p == v)

/-- `swap(s, t)`: exchange the contents of two slots (00_scope.md section 5). -/
def swapSlots (d : Deck) (a b : Fin 28) : Deck := (d.set a d[b]).set b d[a]

/-! ### Responses and gates -/

/-- `respond(status, data)`: the response is offered at the response port; an error status is
also written to LASTERR (R62, R161). -/
def State.respond (s : State) (st : Status) (data : Byte) : State :=
  { s with rsp := some (rspWord st data), lastErr := nextLastErr st s.lastErr }

/-- The answer of a command that ends with `respond(status, data)`. -/
def answer (st : Status) (data : Byte) (s : State) : Result := .next (s.respond st data)

/-- Step 2 of R163: while FATAL = 1 the command is refused with ERR_FATAL. -/
def fatalGate (s : State) (k : Result) : Result :=
  if s.fatal then answer .errFatal 0x00#8 s else k

/-- Step 3 of R163: a command that is no part of the load aborts an open load. -/
def loadingGate (s : State) (k : Result) : Result :=
  if s.loading then answer .errCfgLen (zext s.ldcnt) { s with loading := false } else k

/-- Step 4 of R163: without a valid deck the command is refused with ERR_NODECK. -/
def deckGate (s : State) (k : Result) : Result :=
  if s.deckValid then k else answer .errNodeck 0x00#8 s

/-- Steps 2 to 4 of R163 in their order: the gates of every command that needs a deck (R164). -/
def cipherGates (s : State) (k : Result) : Result := fatalGate s (loadingGate s (deckGate s k))

/-- The answer to an illegal command word, step 1 of R163 (R65). -/
def illegalWord (s : State) : Result := answer .errIllegal 0x00#8 s

/-! ### Taking the Corrupt fault, and reset -/

/-- `raise Corrupt(v)`: FATAL set, DECK_VALID cleared, PHASE to FAULT, ERR_CORRUPT with the missing
sentinel as data (R165). The return from it is SRST or reset (R168). -/
def State.raiseCorrupt (s : State) (v : Card) : State :=
  { s with fatal := true, deckValid := false, phase := .fault }.respond .errCorrupt (zext v)

/-- Every register of R181 but DECK gets its reset value (R151, R181). -/
def State.resetRegisters (s : State) : State :=
  { s with
    anchor := Config.loadAnchor, phase := .idle, fatal := false, loading := false,
    deckValid := false, keyValid := false, lastErr := 0#4, ldcnt := 0#5, key := 0#5,
    cand := 0#5, retry := 0#8, mode := .keyonly, form := .index, letter := 0#5 }

/-- The reset event of the input `rst` (R180 to R182): the registers get their reset values, a
waiting response is lost, the deck is unspecified (the free value of log entry 2). -/
def State.hardReset (s : State) : State :=
  { s.resetRegisters with
    deck := Config.resetDeck s.resets, resets := s.resets + 1, rsp := none,
    inputs := s.inputs.tail }

/-! ### The entry of the key loop -/

/-- The loop entry with the latches MODE, FORM and LETTER; no response yet (R121). -/
def State.loopEntry (s : State) (mode : Mode) (form : Form) (letter : Card) : State :=
  { s with
    keyValid := false, retry := 0#8, phase := .ja, mode := mode, form := form,
    letter := letter }

end Sys2Proof.Machine
end

