-- ==== Sys2Proof/Machine/DeckAccess.lean ====
section
/-! DEFINITION. The deck access commands RDP, RDS and FIND: 41_deck_access.md. They write no state but
LASTERR on an error. -/

namespace Sys2Proof.Machine

/-- RDP p: read the card at position `p` (R90). -/
def execRdp (p : Byte) (s : State) : Result :=
  cipherGates s
    (if isCardOperand p then answer .ok (zext (s.cardAt p.toNat)) s
    else answer .errOperand 0x00#8 s)

/-- RDS s: read the card in physical slot `n` (R91). -/
def execRds (n : Byte) (s : State) : Result :=
  cipherGates s
    (if h : n.toNat < 28 then answer .ok (zext s.deck[n.toNat]) s
    else answer .errOperand 0x00#8 s)

/-- The data byte of FIND: the position, or `0x00` for none (R92). -/
def findData (p : Option Nat) : Byte :=
  match p with
  | none => 0x00#8
  | some q => BitVec.ofNat 8 q

/-- FIND v: return the position of the card with value `v`; never Corrupt (R92). -/
def execFind (v : Byte) (s : State) : Result :=
  cipherGates s
    (if isCardOperand v then answer .ok (findData (s.findCard (narrow v))) s
    else answer .errOperand 0x00#8 s)

end Sys2Proof.Machine
end

