-- ==== Sys2Proof/Machine/DeckLoad.lean ====
section
/-! DEFINITION. The deck load commands LOAD and CARD: 40_deck_load.md. -/

namespace Sys2Proof.Machine

/-- LOAD: begin a deck load (R81). It is itself subject to the LOADING gate (R163). -/
def execLoad (s : State) : Result :=
  fatalGate s (loadingGate s
    (answer .ok 0x00#8
      { s with deckValid := false, keyValid := false, loading := true, ldcnt := 0#5 }))

/-- The duplicate test: some slot `j` in `0 .. LDCNT-1` holds `v` (R82). -/
def alreadyLoaded (s : State) (v : Byte) : Bool :=
  (List.finRange 28).any fun j => decide (j.val < s.ldcnt.toNat) && (s.deck[j] == narrow v)

/-- The accepted card: it is written to slot LDCNT, LDCNT counts it, and the 28th card completes
the load (R82). Slots past 27 do not exist (R49). -/
def acceptCard (v : Byte) (s : State) : Result :=
  if h : s.ldcnt.toNat < 28 then
    let n := s.ldcnt + 1#5
    let s1 := { s with deck := s.deck.set s.ldcnt.toNat (narrow v) h, ldcnt := n }
    let s2 := if n = 28#5 then
        { s1 with loading := false, deckValid := true, anchor := Config.loadAnchor }
      else s1
    answer .ok (zext n) s2
  else .fault .noSuchSlot

/-- CARD v: supply the next card (R82). Only the FATAL gate applies (R164). -/
def execCard (v : Byte) (s : State) : Result :=
  fatalGate s
    (if !s.loading then
      answer .errCfgLen (zext s.ldcnt) { s with deckValid := false, keyValid := false }
    else if !isCardOperand v then
      answer .errCfgRange (zext s.ldcnt) { s with loading := false }
    else if alreadyLoaded s v then
      answer .errCfgDup (zext s.ldcnt) { s with loading := false }
    else acceptCard v s)

end Sys2Proof.Machine
end

