-- ==== Sys2Proof/Machine/LetterMapper.lean ====
section
/-! DEFINITION. The letter mapper: the functions `enc` and `dec` and the commands ENCI, DECI, ENCC and
DECC (44_letter_mapper.md). A command that passes its operand check enters the key loop and has no
response until the loop completes (R121). -/

namespace Sys2Proof.Machine

/-- `enc(i, k) = ((i + k - 1) mod 26) + 1` on integers (R130). -/
def encShift (i k : Card) : Card :=
  BitVec.ofInt 5 ((((i.toNat : Int) + (k.toNat : Int) - 1) % 26) + 1)

/-- `z = ((i - k) mod 26 + 26) mod 26` and `dec(i, k) = 26` if `z = 0`, else `z` (R131). -/
def decShift (i k : Card) : Card :=
  let z := (((i.toNat : Int) - (k.toNat : Int)) % 26 + 26) % 26
  if z = 0 then 26#5 else BitVec.ofInt 5 z

/-- ENCI i: encrypt a letter index (R134). -/
def execEnci (i : Byte) (s : State) : Result :=
  cipherGates s
    (if isIndexOperand i then .next (s.loopEntry .enc .index (narrow i))
    else answer .errOperand 0x00#8 s)

/-- DECI i: decrypt a letter index (R135). -/
def execDeci (i : Byte) (s : State) : Result :=
  cipherGates s
    (if isIndexOperand i then .next (s.loopEntry .dec .index (narrow i))
    else answer .errOperand 0x00#8 s)

/-- ENCC c: encrypt a character; a non-letter is dropped (R136). -/
def execEncc (c : Byte) (s : State) : Result :=
  cipherGates s
    (if isLetter c then .next (s.loopEntry .enc .character (letterIndex c))
    else answer .dropped 0x00#8 s)

/-- DECC c: decrypt an upper-case letter (R137). -/
def execDecc (c : Byte) (s : State) : Result :=
  cipherGates s
    (if isUpper c then .next (s.loopEntry .dec .character (letterIndex c))
    else answer .errOperand 0x00#8 s)

end Sys2Proof.Machine
end

