-- ==== Sys2Proof/Machine/MicroOps.lean ====
section
/-! DEFINITION. The five micro-operations of 42_transform_steps.md in their physical form on
`(DECK, ANCHOR)`. JA, JB and TC answer `.error v` for `raise Corrupt(v)`, before any write (R110). -/

namespace Sys2Proof.Machine

/-- `is_joker(v)` (R100). -/
def isJoker (v : Card) : Bool := v == Config.jokerA || v == Config.jokerB

/-- `count(v) = min(v, 27)` (R100). -/
def countOf (v : Card) : Nat := min v.toNat 27

/-- JokerA (R101): card 27 exchanges with its cyclic successor. -/
def microJA (s : State) : Except Card State :=
  match s.findCard Config.jokerA with
  | none => .error Config.jokerA
  | some p =>
    let a := slotOf s.anchor p
    .ok { s with deck := swapSlots s.deck a (succSlot a) }

/-- JokerB (R102): card 28 exchanges with its next two successors in turn. -/
def microJB (s : State) : Except Card State :=
  match s.findCard Config.jokerB with
  | none => .error Config.jokerB
  | some p =>
    let a := slotOf s.anchor p
    let t := succSlot a
    .ok { s with deck := swapSlots (swapSlots s.deck a t) t (succSlot t) }

/-- The deck after TripleCut (R105), for the earlier and later joker positions `p1`, `p2`: the run of
`a + b` slots from `r` on gets `before` and then `after`; the slots of the middle keep their cards.
All right-hand sides are values before the micro-operation. -/
def tripleCutDeck (s : State) (p1 p2 : Nat) : Deck :=
  let b := p1 - 1
  let a := 28 - p2
  let r := (s.anchor.toNat + 29 - a) % 28
  Vector.ofFn fun j : Fin 28 =>
    let k := (j.val + 28 - r) % 28
    if k < b then s.cardAt (k + 1)
    else if k < b + a then s.cardAt (p2 + 1 + (k - b))
    else s.deck[j]

/-- ANCHOR after TripleCut: `(ANCHOR + b - a) mod 28` (R105). -/
def tripleCutAnchor (anchor : Card) (p1 p2 : Nat) : Card :=
  BitVec.ofNat 5 ((anchor.toNat + (p1 - 1) + 28 - (28 - p2)) % 28)

/-- TripleCut (R104, R105). 27 is tested first. -/
def microTC (s : State) : Except Card State :=
  match s.findCard Config.jokerA, s.findCard Config.jokerB with
  | none, _ => .error Config.jokerA
  | some _, none => .error Config.jokerB
  | some pa, some pb =>
    .ok { s with
      deck := tripleCutDeck s (min pa pb) (max pa pb)
      anchor := tripleCutAnchor s.anchor (min pa pb) (max pa pb) }

/-- The deck after CountCut (R107): the anchor slot keeps its card, the other 27 slots, taken in
position order, are rotated by `n = count(L[28])`. -/
def countCutDeck (s : State) : Deck :=
  let n := countOf (s.cardAt 28)
  Vector.ofFn fun j : Fin 28 =>
    let k := posOf s.anchor j
    if k = 28 then s.deck[j] else s.cardAt ((k - 1 + n) % 27 + 1)

/-- CountCut (R107): ANCHOR stays. It never faults. -/
def microCC (s : State) : State := { s with deck := countCutDeck s }

/-- The candidate of an extraction: `L[c + 1]` with `c = count(L[1])` (R109). -/
def State.candidate (s : State) : Card := s.cardAt (countOf (s.cardAt 1) + 1)

/-- The acceptance test of an extraction: the result is ACCEPT unless `CAND >= 27` (R109). -/
def accepts (c : Card) : Bool := decide (c.toNat < 27)

/-- Extraction (R109): CAND is always written; KEY and KEY_VALID on ACCEPT, KEY_VALID cleared on
SENTINEL. The result is `accepts` of the candidate. -/
def microEX (s : State) : State :=
  if accepts s.candidate then { s with cand := s.candidate, key := s.candidate, keyValid := true }
  else { s with cand := s.candidate, keyValid := false }

end Sys2Proof.Machine
end

