-- ==== Sys2Proof/Machine/KeyLoop.lean ====
section
/-! DEFINITION. The KEY command and the micro-steps of the key loop: 43_key_loop.md. The loop is held in
PHASE and runs one micro-operation per step; it has no iteration limit (R125). -/

namespace Sys2Proof.Machine

/-- KEY: produce the next keystream value (R126). -/
def execKey (s : State) : Result := cipherGates s (.next (s.loopEntry .keyonly .index 0#5))

/-- The data byte of the loop completion, from the latched MODE, FORM and LETTER and the new KEY
(R124). -/
def State.completionData (s : State) : Byte :=
  match s.mode, s.form with
  | .keyonly, _ => zext s.key
  | .enc, .index => zext (encShift s.letter s.key)
  | .enc, .character => charOf (encShift s.letter s.key)
  | .dec, .index => zext (decShift s.letter s.key)
  | .dec, .character => charOf (decShift s.letter s.key)

/-- A micro-step of the phases JA, JB, TC and CC: PHASE advances, or Corrupt overrides the advance;
no response otherwise (R122, R128). -/
def advance (s : State) (r : Except Card State) (p : Phase) : State :=
  match r with
  | .error v => s.raiseCorrupt v
  | .ok t => { t with phase := p }

/-- The micro-step of phase EX: on ACCEPT the command completes, on SENTINEL the whole cycle is run
again from JA (R123). -/
def extractStep (s : State) : State :=
  let t := microEX s
  if accepts s.candidate then { t with phase := .idle }.respond .ok t.completionData
  else { t with retry := retrySucc t.retry, phase := .ja }

/-- One micro-step of the sequencer (R121 to R123); in IDLE and FAULT no micro-operation is
pending. -/
def microStep (s : State) : State :=
  match s.phase with
  | .idle => s
  | .ja => advance s (microJA s) .jb
  | .jb => advance s (microJB s) .tc
  | .tc => advance s (microTC s) .cc
  | .cc => advance s (.ok (microCC s)) .ex
  | .ex => extractStep s
  | .fault => s

end Sys2Proof.Machine
end

