-- ==== Sys2Proof/Machine/System.lean ====
section
/-! DEFINITION. The system commands NOP, SRST and RDR: 45_system.md. None of them is gated (R164). -/

namespace Sys2Proof.Machine

/-- NOP: do nothing (R150). -/
def execNop (s : State) : Result := answer .ok 0x00#8 s

/-- SRST: every register gets its reset value, DECK is not written (R151). -/
def execSrst (s : State) : Result := answer .ok 0x00#8 s.resetRegisters

/-- The value RDR returns for register number `r` (R26, R152). -/
def readRegister (s : State) (r : Nat) : Option Byte :=
  match r with
  | 0 => some s.statusByte
  | 1 => some (zext s.anchor)
  | 2 => some (zext s.key)
  | 3 => some (zext s.cand)
  | 4 => some s.retry
  | 5 => some (zext s.ldcnt)
  | _ => none

/-- RDR r: read a control or status register (R152). -/
def execRdr (r : Byte) (s : State) : Result :=
  match readRegister s r.toNat with
  | some v => answer .ok v s
  | none => answer .errOperand 0x00#8 s

end Sys2Proof.Machine
end

