-- ==== Sys2Proof/Machine/Transform.lean ====
section
/-! DEFINITION. The single-step commands JA, JB, TC, CC and EX: 42_transform_steps.md section 8. PHASE
stays as it is unless Corrupt is raised. -/

namespace Sys2Proof.Machine

/-- A micro-operation issued as a command: `OK` with no data, or the Corrupt fault (R112 to R114). -/
def answerMicro (s : State) (r : Except Card State) : Result :=
  match r with
  | .error v => .next (s.raiseCorrupt v)
  | .ok t => answer .ok 0x00#8 t

/-- JA: run JokerA once (R112). -/
def execJa (s : State) : Result := cipherGates s (answerMicro s (microJA s))

/-- JB: run JokerB once (R113). -/
def execJb (s : State) : Result := cipherGates s (answerMicro s (microJB s))

/-- TC: run TripleCut once (R114). -/
def execTc (s : State) : Result := cipherGates s (answerMicro s (microTC s))

/-- CC: run CountCut once (R115). -/
def execCc (s : State) : Result := cipherGates s (answer .ok 0x00#8 (microCC s))

/-- EX: run the extraction once, without retry; a joker candidate is reported with status
SENTINEL (R116). -/
def execEx (s : State) : Result :=
  cipherGates s
    (answer (if accepts s.candidate then .ok else .sentinel) (zext s.candidate) (microEX s))

end Sys2Proof.Machine
end

