-- ==== Sys2Proof/Machine/Dispatch.lean ====
section
/-! DEFINITION. One arm per command of 30_encoding.md rule R63, one direct call of its meaning. -/

namespace Sys2Proof.Machine

def exec (i : Instr) (s : State) : Host.Outcome State Fault Refusal :=
  match i with
  | .nop => Sys2Proof.Machine.execNop s
  | .srst => Sys2Proof.Machine.execSrst s
  | .rdr r => Sys2Proof.Machine.execRdr r s
  | .load => Sys2Proof.Machine.execLoad s
  | .card v => Sys2Proof.Machine.execCard v s
  | .ja => Sys2Proof.Machine.execJa s
  | .jb => Sys2Proof.Machine.execJb s
  | .tc => Sys2Proof.Machine.execTc s
  | .cc => Sys2Proof.Machine.execCc s
  | .ex => Sys2Proof.Machine.execEx s
  | .key => Sys2Proof.Machine.execKey s
  | .enci x => Sys2Proof.Machine.execEnci x s
  | .deci x => Sys2Proof.Machine.execDeci x s
  | .encc c => Sys2Proof.Machine.execEncc c s
  | .decc c => Sys2Proof.Machine.execDecc c s
  | .rdp p => Sys2Proof.Machine.execRdp p s
  | .rds n => Sys2Proof.Machine.execRds n s
  | .find v => Sys2Proof.Machine.execFind v s

end Sys2Proof.Machine
end

