-- ==== Sys2Proof/Machine/Ports.lean ====
section
/-! DEFINITION. The ports: 30_encoding.md rule R60, 60_exceptions.md rule R169, 70_reset_and_hazards.md
rules R180 and R185. -/

namespace Sys2Proof.Machine

/-- The input `rst` at this step boundary. -/
def State.rst (s : State) : Bool :=
  match s.inputs with
  | .rst :: _ => true
  | _ => false

/-- `cmd_data` while `cmd_valid = 1`, else `none`. -/
def State.offered (s : State) : Option CmdWord :=
  match s.inputs with
  | .offer w :: _ => some w
  | _ => none

/-- The input `rsp_ready`. -/
def State.rspReady (s : State) : Bool :=
  match s.inputs with
  | .take :: _ => true
  | _ => false

/-- PHASE is JA, JB, TC, CC or EX. -/
def Phase.running : Phase → Bool
  | .idle => false
  | .ja => true
  | .jb => true
  | .tc => true
  | .cc => true
  | .ex => true
  | .fault => false

/-- The output `busy` (R60, R169). -/
def State.busy (s : State) : Bool := s.phase.running

/-- The output `fatal`, equal to the FATAL flag (R60). -/
def State.fatalOut (s : State) : Bool := s.fatal

/-- The output `cmd_ready`: PHASE is IDLE or FAULT and no response is waiting (R60); 0 while
`rst = 1` (R180). -/
def State.cmdReady (s : State) : Bool := !s.rst && !s.busy && s.rsp.isNone

/-- The output `rsp_valid`: a response is waiting (R185); 0 while `rst = 1` (R180). -/
def State.rspValid (s : State) : Bool := !s.rst && s.rsp.isSome

/-- The host's current act is over. -/
def State.dropInput (s : State) : State := { s with inputs := s.inputs.tail }

/-- One transition passes at the ports: a host that waits has waited for it; an offer and a
`rsp_ready` stay as they are (R60). -/
def State.passTime (s : State) : State :=
  match s.inputs with
  | .wait :: _ => s.dropInput
  | _ => s

/-- A response is waiting: it is taken when `rsp_ready = 1`, else it stays unchanged (R60, R185). -/
def State.serveResponse (s : State) : State :=
  if s.rspReady then { s.dropInput with rsp := none } else s.passTime

end Sys2Proof.Machine
end

