-- ==== Sys2Proof/Machine/Step.lean ====
section
/-! DEFINITION. One step of the DKE, one of the events of 30_encoding.md rule R60: reset, a micro-step, a
response waiting or taken, a command accepted and executed, or nothing. -/

namespace Sys2Proof.Machine

/-- An accepted command word: decoded first (R163 step 1), then executed. -/
def runWord (w : CmdWord) (s : State) : Result :=
  match decode w with
  | .ok i => exec i s
  | .error _ => illegalWord s

/-- One step. Reset wins over everything (R171); while PHASE is running the engine performs
micro-steps and accepts nothing (R121); a waiting response blocks acceptance (R60, R185); otherwise
an offered command word is accepted and executed. -/
def step (s : State) : Host.Outcome State Fault Refusal :=
  if s.rst then .next s.hardReset
  else if s.busy then .next (microStep s.passTime)
  else if s.rsp.isSome then .next s.serveResponse
  else
    match s.offered with
    | some w => runWord w s.dropInput
    | none => .next s.passTime

/-- `s` with the command word of a table row offered as the host's next act, in front of all its
other acts. The engine is made ready to accept it: no response is waiting, and a running loop is
abandoned to IDLE. -/
def State.withFetchWord (s : State) (nbits w : Nat) : State :=
  { s with
    inputs := .offer (tableWord nbits w) :: s.inputs
    rsp := none
    phase := if s.busy then .idle else s.phase }

end Sys2Proof.Machine
end

