-- ==== Sys2Proof/Safety.lean ====
section
/-! DEFINITION. The terms in which claims are stated: the deck invariant and the machine's invariants,
runs of steps, a host that issues one command after another, and the key loop as one function. -/

namespace Sys2Proof.Machine

/-! ### Invariants -/

/-- The 28 slots hold every value 1..28 exactly once (R12). -/
def DeckComplete (d : Deck) : Prop := (d.toList.map BitVec.toNat).Perm (List.range' 1 28)

/-- The first `n` slots hold distinct card values 1..28: what a load has accepted so far (R16, R82). -/
def LoadedDistinct (d : Deck) (n : Nat) : Prop :=
  (∀ i : Fin 28, i.val < n → 1 ≤ d[i].toNat ∧ d[i].toNat ≤ 28) ∧
    ∀ i j : Fin 28, i.val < n → j.val < n → d[i] = d[j] → i = j

/-- The consistency of the control registers. It speaks of no card, and holds on corrupted decks
and in the FAULT state too. -/
structure State.Wf (s : State) : Prop where
  /-- ANCHOR is a slot index (R13). -/
  anchor_lt : s.anchor.toNat < 28
  /-- LDCNT is 0..28 (R20). -/
  ldcnt_le : s.ldcnt.toNat ≤ 28
  /-- While a load is open fewer than 28 cards have been accepted (R82). -/
  loading_lt : s.loading = true → s.ldcnt.toNat < 28
  /-- FATAL = 1 if and only if PHASE = FAULT (R15). -/
  fatal_iff : s.fatal = true ↔ s.phase = .fault
  /-- DECK_VALID and LOADING are never both 1 (R17). -/
  valid_not_loading : s.deckValid = true → s.loading = false
  /-- FATAL and LOADING never hold together (R163). -/
  fatal_not_loading : s.fatal = true → s.loading = false
  /-- The Corrupt fault has cleared DECK_VALID (R165). -/
  fatal_not_valid : s.fatal = true → s.deckValid = false
  /-- A key loop runs only on a valid deck, with KEY_VALID = 0 and no response waiting (R121). -/
  busy_loop : s.busy = true → s.deckValid = true ∧ s.keyValid = false ∧ s.rsp = none
  /-- LASTERR is 0 or 8..15 (R19). -/
  lastErr_legal : s.lastErr = 0#4 ∨ 8 ≤ s.lastErr.toNat
  /-- A waiting response has the one format of R62. -/
  rsp_format : ∀ w, s.rsp = some w → ∃ st data, w = rspWord st data
  /-- LETTER is 1..26 while a mapper command runs (R24). -/
  letter_legal : s.busy = true → s.mode ≠ .keyonly → 1 ≤ s.letter.toNat ∧ s.letter.toNat ≤ 26

/-- The invariant of the states the commands can reach (R12, R111, R129, R165). -/
structure State.Inv (s : State) : Prop extends State.Wf s where
  /-- The Corrupt fault is never taken (R165). -/
  not_fatal : s.fatal = false
  /-- The deck invariant (R12). -/
  deck_complete : s.deckValid = true → DeckComplete s.deck
  /-- After a complete load LDCNT is 28 and stays 28 (R20). -/
  deck_count : s.deckValid = true → s.ldcnt = 28#5
  /-- The cards of an open load are distinct and in range (R82). -/
  load_distinct : s.loading = true → LoadedDistinct s.deck s.ldcnt.toNat
  /-- KEY is 0 or 1..26 (R21). -/
  key_le : s.key.toNat ≤ 26
  /-- CAND is 0 or 1..28 (R22). -/
  cand_le : s.cand.toNat ≤ 28
  /-- KEY_VALID says that KEY is a key of the current deck (R18, R129). -/
  key_valid : s.keyValid = true → s.deckValid = true ∧ 1 ≤ s.key.toNat ∧ s.key = s.cand

/-- The three gates of R163 are open: a command that needs a deck is executed. -/
def State.GatesOpen (s : State) : Prop :=
  s.fatal = false ∧ s.loading = false ∧ s.deckValid = true

/-- Two states that agree on everything but the physical layout of the deck, as far as a command
other than RDS and RDR 1 can tell: the linear views agree while a deck is valid, and the slots
written so far agree while a load is open (R29, R45; log entry 8). -/
structure SameView (s t : State) : Prop where
  /-- All registers but DECK and ANCHOR, and the ports, agree. -/
  registers : t = { s with deck := t.deck, anchor := t.anchor }
  /-- The decks read the same from front to anchor. -/
  view : s.deckValid = true → s.linear = t.linear
  /-- The slots `0 .. LDCNT-1` of an open load agree. -/
  loaded : s.loading = true → ∀ j : Fin 28, j.val < s.ldcnt.toNat → s.deck[j] = t.deck[j]

/-- Two states that differ only in slot contents that no command can observe (R181). -/
structure UnseenDeck (s t : State) : Prop where
  /-- All registers but DECK, and the ports, agree. -/
  registers : t = { s with deck := t.deck }
  /-- A valid deck agrees in every slot. -/
  valid : s.deckValid = true → s.deck = t.deck
  /-- The slots `0 .. LDCNT-1` of an open load agree. -/
  loaded : s.loading = true → ∀ j : Fin 28, j.val < s.ldcnt.toNat → s.deck[j] = t.deck[j]

/-! ### Runs -/

/-- `k` steps, stopping at a fault or refusal. -/
def steps : Nat → State → Result
  | 0, s => .next s
  | k + 1, s =>
    match step s with
    | .next t => steps k t
    | .fault f => .fault f
    | .refused r => .refused r

/-- The host offers the command `i`, lets `k` steps pass and takes the response: the response and
the state after it, or `none` where no response has come within `k` steps. Steps after the response
has come change nothing, because the host offers nothing more. -/
def issue (k : Nat) (i : Instr) (s : State) : Option (RspWord × State) :=
  match steps k { s with inputs := [.offer (encode i)], rsp := none } with
  | .next t =>
    match t.rsp with
    | some w => some (w, { t with rsp := none })
    | none => none
  | .fault _ => none
  | .refused _ => none

/-- The host issues the commands of a list in order, at most `k` steps each: all responses and the
state after the last. -/
def issueAll (k : Nat) : List Instr → State → Option (List RspWord × State)
  | [], s => some ([], s)
  | i :: is, s =>
    match issue k i s with
    | none => none
    | some (w, t) =>
      match issueAll k is t with
      | none => none
      | some (ws, u) => some (w :: ws, u)

/-- The engine is idle with a valid deck and no response waiting: the host may issue a command. -/
def State.Ready (s : State) : Prop :=
  s.phase = .idle ∧ s.deckValid = true ∧ s.rsp = none

/-- The upper-case form of a letter (R133). -/
def upperOf (c : Byte) : Byte := charOf (letterIndex c)

/-! ### The key loop as one function -/

/-- JA, JB, TC and CC in their fixed order (R108). On Corrupt: the missing sentinel, and the state
that the completed micro-operations left (R110). -/
def fourSteps (s : State) : Except (Card × State) State :=
  match microJA s with
  | .error v => .error (v, s)
  | .ok s1 =>
    match microJB s1 with
    | .error v => .error (v, s1)
    | .ok s2 =>
      match microTC s2 with
      | .error v => .error (v, s2)
      | .ok s3 => .ok (microCC s3)

/-- How a key loop ends. -/
inductive LoopEnd where
  /-- A candidate was accepted: KEY, CAND and KEY_VALID are written. -/
  | accepted (s : State)
  /-- A micro-operation raised Corrupt(v); the state before the fault is taken. -/
  | corrupt (v : Card) (s : State)
  deriving DecidableEq, Repr

/-- The body of `key_loop()` (R120), at most `n` cycles of it; `none` means that `n` cycles did not
end it, which is no outcome of the DKE (R125). -/
def keyLoop : Nat → State → Option LoopEnd
  | 0, _ => none
  | n + 1, s =>
    match fourSteps s with
    | .error (v, t) => some (.corrupt v t)
    | .ok t =>
      let u := microEX t
      if u.keyValid then some (.accepted u)
      else keyLoop n { u with retry := retrySucc u.retry }

/-- What the command's end makes of the loop's end: the completion of R124, or the fault of R128. -/
def LoopEnd.finish : LoopEnd → State
  | .accepted s => { s with phase := .idle }.respond .ok s.completionData
  | .corrupt v s => s.raiseCorrupt v

end Sys2Proof.Machine
end

