-- ==== Sys2Proof/Certificates/Slice0/Obligations.lean ====
section
/-! DEFINITION. The statements for the provers, in the order of OBLIGATIONS.json. Each docstring names
the rules it rests on. -/

open Sys2Proof Sys2Proof.Machine

/-! ### Encoding -/

/-- R61, R63, R67: a word decodes to a command exactly when it is that command's encoding; every
operand value is covered. -/
def Obligations.DecodeReadsExactlyTheEncodedWord : Prop :=
  ∀ (w : CmdWord) (i : Instr), decode w = .ok i ↔ encode i = w

/-- R65: the illegal words are those of the 238 unused opcodes and of the nine `zero`-operand
opcodes with a non-zero operand; an accepted illegal word is answered ERR_ILLEGAL in every state and
changes nothing else but LASTERR. -/
def Obligations.ReservedWordsAreIllegalInEveryState : Prop :=
  (∀ w : CmdWord, (∃ e, decode w = .error e) ↔
    (w.toNat / 256 ∉ [0x00, 0x01, 0x02, 0x10, 0x11, 0x20, 0x21, 0x22, 0x23, 0x24, 0x30, 0x40, 0x41,
        0x42, 0x43, 0x50, 0x51, 0x52] ∨
      (w.toNat / 256 ∈ [0x00, 0x01, 0x10, 0x20, 0x21, 0x22, 0x23, 0x24, 0x30] ∧
        w.toNat % 256 ≠ 0))) ∧
  ∀ (s : State) (w : CmdWord) (e : DecodeError) (rest : List PortEvent),
    s.inputs = .offer w :: rest → s.cmdReady = true → decode w = .error e →
    step s = .next { s with inputs := rest, lastErr := 0x8#4, rsp := some 0x8000#16 }

/-- R61, R63, R65: each of the 18 opcodes of the table of R63, written out, decodes to its command: a
`zero` row as the one word with operand `0x00`, an `imm8` row with every operand byte, which the
command carries unchanged. Words of 95_test_vectors.md section 2 decode to the commands listed there. -/
def Obligations.SampleWordsDecodeAsListed : Prop :=
  (decode 0x0000#16 = .ok .nop ∧ decode 0x0100#16 = .ok .srst ∧ decode 0x1000#16 = .ok .load ∧
    decode 0x2000#16 = .ok .ja ∧ decode 0x2100#16 = .ok .jb ∧ decode 0x2200#16 = .ok .tc ∧
    decode 0x2300#16 = .ok .cc ∧ decode 0x2400#16 = .ok .ex ∧ decode 0x3000#16 = .ok .key) ∧
  (∀ b : Byte,
    decode (0x02#8 ++ b) = .ok (.rdr b) ∧ decode (0x11#8 ++ b) = .ok (.card b) ∧
    decode (0x40#8 ++ b) = .ok (.enci b) ∧ decode (0x41#8 ++ b) = .ok (.deci b) ∧
    decode (0x42#8 ++ b) = .ok (.encc b) ∧ decode (0x43#8 ++ b) = .ok (.decc b) ∧
    decode (0x50#8 ++ b) = .ok (.rdp b) ∧ decode (0x51#8 ++ b) = .ok (.rds b) ∧
    decode (0x52#8 ++ b) = .ok (.find b)) ∧
  decode 0x0205#16 = .ok (.rdr 5#8) ∧ decode 0x110D#16 = .ok (.card 13#8) ∧
  decode 0x4248#16 = .ok (.encc 0x48#8) ∧ decode 0x511B#16 = .ok (.rds 27#8)

/-- R62, R160: the fields of a response word and the codes of the statuses. -/
def Obligations.ResponseWordHasTheOneFormat : Prop :=
  (∀ (st : Status) (d : Byte),
    (rspWord st d).toNat / 4096 = st.code.toNat ∧ (rspWord st d).toNat / 256 % 16 = 0 ∧
      (rspWord st d).toNat % 256 = d.toNat) ∧
  ([Status.ok, .dropped, .sentinel, .errIllegal, .errOperand, .errNodeck, .errCfgRange, .errCfgDup,
    .errCfgLen, .errCorrupt, .errFatal].map fun st => st.code.toNat) =
    [0, 1, 2, 8, 9, 10, 11, 12, 13, 14, 15]

/-! ### Ports and steps -/

/-- R60, R163: when the engine is ready and the offered word decodes to `i`, the step is `exec i`
on the state whose host has finished that offer; nothing else happens in it. -/
def Obligations.StepExecutesTheAcceptedCommand : Prop :=
  ∀ (s : State) (w : CmdWord) (i : Instr) (rest : List PortEvent),
    s.inputs = .offer w :: rest → s.cmdReady = true → decode w = .ok i →
    step s = exec i { s with inputs := rest }

/-- R60, R169, R180: the outputs as functions of the state. -/
def Obligations.OutputsFollowPhaseAndPorts : Prop :=
  ∀ s : State,
    (s.cmdReady = true ↔ s.rst = false ∧ (s.phase = .idle ∨ s.phase = .fault) ∧ s.rsp = none) ∧
    (s.busy = true ↔ s.phase ∈ [Phase.ja, .jb, .tc, .cc, .ex]) ∧
    s.fatalOut = s.fatal ∧
    (s.rspValid = true ↔ s.rst = false ∧ s.rsp ≠ none)

/-- R60, R121, R185: a word offered while the engine is not ready is not executed: while PHASE is
running the step is the micro-step of the loop, while a response waits the step changes nothing. That
the host holds its offer until the word is accepted is the model's choice (log entry 3): the offer is
the same after the step. -/
def Obligations.OfferWaitsWhileEngineIsNotReady : Prop :=
  ∀ (s : State) (w : CmdWord) (rest : List PortEvent), s.inputs = .offer w :: rest →
    (s.busy = true → step s = .next (microStep s) ∧ (microStep s).inputs = s.inputs) ∧
    (s.busy = false → s.rsp ≠ none → step s = .next s)

/-- R60, R185: a waiting response is held until the host takes it, and taking it changes nothing
else. -/
def Obligations.ResponseIsHeldUntilTaken : Prop :=
  ∀ (s : State) (w : RspWord), s.rsp = some w → s.busy = false → s.rst = false →
    (∀ rest, s.inputs = .take :: rest → step s = .next { s with rsp := none, inputs := rest }) ∧
    (s.rspReady = false → ∃ t, step s = .next t ∧ t = { s with inputs := t.inputs })

/-- R180 to R182, R171: reset wins in every state, also in the middle of a key loop; the registers
get the values of R181, a waiting response is lost; nothing is said of the deck. -/
def Obligations.ResetWinsInEveryState : Prop :=
  ∀ s : State, s.rst = true → ∃ t, step s = .next t ∧
    t = { deck := t.deck, anchor := 27#5, phase := .idle, fatal := false, loading := false,
          deckValid := false, keyValid := false, lastErr := 0#4, ldcnt := 0#5, key := 0#5,
          cand := 0#5, retry := 0#8, mode := .keyonly, form := .index, letter := 0#5, rsp := none,
          inputs := s.inputs.tail, resets := s.resets + 1 }

/-- R181: the reset state. Nothing is said of the deck, which R181 leaves unspecified. -/
def Obligations.ResetStateHoldsTheListedValues : Prop :=
  State.reset = {
    deck := State.reset.deck, anchor := 27#5, phase := .idle, fatal := false,
    loading := false, deckValid := false, keyValid := false, lastErr := 0#4, ldcnt := 0#5,
    key := 0#5, cand := 0#5, retry := 0#8, mode := .keyonly, form := .index, letter := 0#5,
    rsp := none, inputs := State.reset.inputs, resets := State.reset.resets } ∧
  State.reset.busy = false ∧ State.reset.fatalOut = false ∧ State.reset.cmdReady = true ∧
  State.reset.rspValid = false ∧ State.reset.statusByte = 0x00#8

/-! ### System commands -/

/-- R150: NOP responds OK and changes nothing, in every state. -/
def Obligations.NopOnlyResponds : Prop :=
  ∀ s : State, exec .nop s = .next { s with rsp := some 0x0000#16 }

/-- R151: SRST writes every register its reset value, keeps the deck slots and responds OK, in
every state. -/
def Obligations.SrstResetsEveryRegisterButTheDeck : Prop :=
  ∀ s : State, exec .srst s = .next
    { deck := s.deck, anchor := 27#5, phase := .idle, fatal := false, loading := false,
      deckValid := false, keyValid := false, lastErr := 0#4, ldcnt := 0#5, key := 0#5,
      cand := 0#5, retry := 0#8, mode := .keyonly, form := .index, letter := 0#5,
      rsp := some 0x0000#16, inputs := s.inputs, resets := s.resets }

/-- R25, R26, R152: RDR returns the named register, STATUS as the composite of R25, in every state
and with no side effect; a register number 6..255 is ERR_OPERAND. -/
def Obligations.RdrReturnsTheNamedRegister : Prop :=
  ∀ s : State,
    exec (.rdr 0#8) s = .next { s with rsp := some (rspWord .ok (BitVec.ofNat 8
      (128 * s.fatal.toNat + 64 * s.loading.toNat + 32 * s.deckValid.toNat +
        16 * s.keyValid.toNat + s.lastErr.toNat))) } ∧
    exec (.rdr 1#8) s = .next { s with rsp := some (rspWord .ok (s.anchor.setWidth 8)) } ∧
    exec (.rdr 2#8) s = .next { s with rsp := some (rspWord .ok (s.key.setWidth 8)) } ∧
    exec (.rdr 3#8) s = .next { s with rsp := some (rspWord .ok (s.cand.setWidth 8)) } ∧
    exec (.rdr 4#8) s = .next { s with rsp := some (rspWord .ok s.retry) } ∧
    exec (.rdr 5#8) s = .next { s with rsp := some (rspWord .ok (s.ldcnt.setWidth 8)) } ∧
    ∀ r : Byte, 6 ≤ r.toNat →
      exec (.rdr r) s = .next { s with lastErr := 0x9#4, rsp := some 0x9000#16 }

/-! ### The order of checks -/

/-- R163 steps 2 to 4, R164: the gates, in their order and before any operand check. While FATAL = 1
every command but NOP, RDR and SRST is refused with ERR_FATAL; every command but those and CARD
aborts an open load and is itself discarded, LOAD included; every command that needs a deck is
refused with ERR_NODECK while there is none. -/
def Obligations.GatesRefuseInTheirOrder : Prop :=
  ∀ (i : Instr) (s : State), i ≠ .nop → i ≠ .srst → (∀ r, i ≠ .rdr r) →
    (s.fatal = true →
      exec i s = .next { s with lastErr := 0xF#4, rsp := some 0xF000#16 }) ∧
    ((∀ v, i ≠ .card v) → s.fatal = false → s.loading = true →
      exec i s = .next { s with
        loading := false, lastErr := 0xD#4,
        rsp := some (rspWord .errCfgLen (s.ldcnt.setWidth 8)) }) ∧
    ((∀ v, i ≠ .card v) → i ≠ .load → s.fatal = false → s.loading = false →
      s.deckValid = false →
      exec i s = .next { s with lastErr := 0xA#4, rsp := some 0xA000#16 })

/-- R163 step 5, R64, R136: with the gates open an operand outside the legal range of R64 is
refused with ERR_OPERAND, ENCC drops a character that is no letter; the key stream is untouched. -/
def Obligations.OperandCheckRefusesBeforeAnyEffect : Prop :=
  ∀ (b : Byte) (s : State), s.GatesOpen →
    ((b.toNat < 1 ∨ 26 < b.toNat) → ∀ i ∈ [Instr.enci b, .deci b],
      exec i s = .next { s with lastErr := 0x9#4, rsp := some 0x9000#16 }) ∧
    ((b.toNat < 1 ∨ 28 < b.toNat) → ∀ i ∈ [Instr.rdp b, .find b],
      exec i s = .next { s with lastErr := 0x9#4, rsp := some 0x9000#16 }) ∧
    (27 < b.toNat →
      exec (.rds b) s = .next { s with lastErr := 0x9#4, rsp := some 0x9000#16 }) ∧
    ((b.toNat < 0x41 ∨ 0x5A < b.toNat) →
      exec (.decc b) s = .next { s with lastErr := 0x9#4, rsp := some 0x9000#16 }) ∧
    ((b.toNat < 0x41 ∨ (0x5A < b.toNat ∧ b.toNat < 0x61) ∨ 0x7A < b.toNat) →
      exec (.encc b) s = .next { s with rsp := some 0x1000#16 })

/-! ### The deck load -/

/-- R81: LOAD opens a load and discards the deck; the slots and the other registers stay. -/
def Obligations.LoadOpensALoad : Prop :=
  ∀ s : State, s.fatal = false → s.loading = false →
    exec .load s = .next { s with
      deckValid := false, keyValid := false, loading := true, ldcnt := 0#5,
      rsp := some 0x0000#16 }

/-- R82: a card in range that no earlier slot of this load holds is written to slot LDCNT; the
28th completes the load. -/
def Obligations.CardFillsTheNextSlot : Prop :=
  ∀ (v : Byte) (s : State) (h : s.ldcnt.toNat < 28), s.fatal = false → s.loading = true →
    1 ≤ v.toNat → v.toNat ≤ 28 →
    (∀ j : Fin 28, j.val < s.ldcnt.toNat → s.deck[j].toNat ≠ v.toNat) →
    exec (.card v) s = .next { s with
      deck := s.deck.set s.ldcnt.toNat (v.setWidth 5) h
      ldcnt := s.ldcnt + 1#5
      loading := decide (s.ldcnt.toNat ≠ 27)
      deckValid := if s.ldcnt.toNat = 27 then true else s.deckValid
      anchor := if s.ldcnt.toNat = 27 then 27#5 else s.anchor
      rsp := some (rspWord .ok (s.ldcnt.setWidth 8 + 1#8)) }

/-- R82, R167: the three configuration errors of CARD, in their order; LDCNT and the slots stay. -/
def Obligations.CardConfigurationErrorsCloseTheLoad : Prop :=
  ∀ (v : Byte) (s : State), s.fatal = false →
    (s.loading = false → exec (.card v) s = .next { s with
      deckValid := false, keyValid := false, lastErr := 0xD#4,
      rsp := some (rspWord .errCfgLen (s.ldcnt.setWidth 8)) }) ∧
    (s.loading = true → (v.toNat < 1 ∨ 28 < v.toNat) → exec (.card v) s = .next { s with
      loading := false, lastErr := 0xB#4,
      rsp := some (rspWord .errCfgRange (s.ldcnt.setWidth 8)) }) ∧
    (s.loading = true → 1 ≤ v.toNat → v.toNat ≤ 28 →
      (∃ j : Fin 28, j.val < s.ldcnt.toNat ∧ s.deck[j].toNat = v.toNat) →
      exec (.card v) s = .next { s with
        loading := false, lastErr := 0xC#4,
        rsp := some (rspWord .errCfgDup (s.ldcnt.setWidth 8)) })

/-- R80, R83, R84: from every state in which a load can begin, LOAD and the 28 cards of any
permutation of 1..28 are answered OK and leave that deck, whatever the state was. -/
def Obligations.CompleteLoadEstablishesTheSuppliedDeck : Prop :=
  ∀ (s : State) (vs : List Byte), s.fatal = false → s.loading = false → s.busy = false →
    (vs.map BitVec.toNat).Perm (List.range' 1 28) →
    ∃ t, issueAll 1 (.load :: vs.map Instr.card) s =
        some ((List.range 29).map (fun n => rspWord .ok (BitVec.ofNat 8 n)), t) ∧
      t.deckValid = true ∧ t.loading = false ∧ t.fatal = false ∧ t.keyValid = false ∧
      t.ldcnt = 28#5 ∧ t.anchor = 27#5 ∧
      t.deck.toList.map BitVec.toNat = vs.map BitVec.toNat ∧
      t.linear.map BitVec.toNat = vs.map BitVec.toNat

/-- R17: DECK_VALID becomes 1 only by the CARD that is the 28th of an open load. -/
def Obligations.OnlyThe28thCardMakesADeckValid : Prop :=
  ∀ s t : State, step s = .next t → s.deckValid = false → t.deckValid = true →
    ∃ v rest, s.inputs = .offer (encode (.card v)) :: rest ∧ s.loading = true ∧
      s.ldcnt = 27#5 ∧ t.ldcnt = 28#5

/-! ### Deck access -/

/-- R41: the translation between positions and slots is a bijection, the anchor slot is position
28 and its successor position 1. -/
def Obligations.PositionsAndSlotsTranslateBothWays : Prop :=
  ∀ s : State, s.anchor.toNat < 28 →
    (slotOf s.anchor 28).val = s.anchor.toNat ∧
    (slotOf s.anchor 1).val = (s.anchor.toNat + 1) % 28 ∧
    (∀ p, (slotOf s.anchor p).val = (s.anchor.toNat + p) % 28) ∧
    (∀ j : Fin 28, (posOf s.anchor j : Int) =
      ((j.val : Int) - (s.anchor.toNat : Int) - 1) % 28 + 1) ∧
    (∀ p, 1 ≤ p → p ≤ 28 → posOf s.anchor (slotOf s.anchor p) = p) ∧
    (∀ j : Fin 28, slotOf s.anchor (posOf s.anchor j) = j ∧ 1 ≤ posOf s.anchor j ∧
      posOf s.anchor j ≤ 28 ∧ (j.val = s.anchor.toNat → posOf s.anchor j = 28)) ∧
    (∀ p, s.cardAt p = s.deck[(s.anchor.toNat + p) % 28]'(Nat.mod_lt _ (by decide))) ∧
    s.linear.length = 28 ∧
    ∀ p, 1 ≤ p → p ≤ 28 → s.linear[p - 1]? = some (s.cardAt p)

/-- R44: `find(v)` is the least position that holds `v`, or none; on a complete deck every card
1..28 is found, at its only position. -/
def Obligations.FindIsTheLeastPosition : Prop :=
  ∀ (s : State) (v : Card),
    (∀ p, s.findCard v = some p ↔
      1 ≤ p ∧ p ≤ 28 ∧ s.cardAt p = v ∧ ∀ q, 1 ≤ q → q < p → s.cardAt q ≠ v) ∧
    (s.findCard v = none ↔ ∀ p, 1 ≤ p → p ≤ 28 → s.cardAt p ≠ v) ∧
    (DeckComplete s.deck → 1 ≤ v.toNat → v.toNat ≤ 28 →
      ∃ p, s.findCard v = some p ∧ ∀ q, 1 ≤ q → q ≤ 28 → s.cardAt q = v → q = p)

/-- R90: RDP returns the card at the position and changes nothing. -/
def Obligations.RdpReturnsTheCardAtAPosition : Prop :=
  ∀ (p : Byte) (s : State), s.GatesOpen → 1 ≤ p.toNat → p.toNat ≤ 28 →
    exec (.rdp p) s = .next { s with
      rsp := some (rspWord .ok
        ((s.deck[(s.anchor.toNat + p.toNat) % 28]'(Nat.mod_lt _ (by decide))).setWidth 8)) }

/-- R91: RDS returns the card in the slot, without translation, and changes nothing. -/
def Obligations.RdsReturnsTheCardInASlot : Prop :=
  ∀ (n : Byte) (s : State) (h : n.toNat < 28), s.GatesOpen →
    exec (.rds n) s = .next { s with rsp := some (rspWord .ok (s.deck[n.toNat].setWidth 8)) }

/-- R92: FIND returns the first position that holds the card, 0 where there is none; it never
raises Corrupt and changes nothing. -/
def Obligations.FindReturnsTheFirstPosition : Prop :=
  ∀ (v : Byte) (s : State), s.GatesOpen → 1 ≤ v.toNat → v.toNat ≤ 28 →
    (∀ p, 1 ≤ p → p ≤ 28 → (s.cardAt p).toNat = v.toNat →
      (∀ q, 1 ≤ q → q < p → (s.cardAt q).toNat ≠ v.toNat) →
      exec (.find v) s = .next { s with rsp := some (rspWord .ok (BitVec.ofNat 8 p)) }) ∧
    ((∀ p, 1 ≤ p → p ≤ 28 → (s.cardAt p).toNat ≠ v.toNat) →
      exec (.find v) s = .next { s with rsp := some 0x0000#16 })

/-! ### The transform steps as commands -/

/-- R101, R112: JA exchanges card 27 with its cyclic successor; without 27 it takes the Corrupt
fault and changes no card. -/
def Obligations.JokerAMovesOnePositionForward : Prop :=
  ∀ s : State, s.GatesOpen →
    (∀ p, s.findCard 27#5 = some p → ∃ t, exec .ja s = .next t ∧
      t = { s with deck := t.deck, rsp := some 0x0000#16 } ∧
      ∀ q, 1 ≤ q → q ≤ 28 → t.cardAt q =
        if q = p then s.cardAt (p % 28 + 1) else if q = p % 28 + 1 then 27#5 else s.cardAt q) ∧
    (s.findCard 27#5 = none → exec .ja s = .next { s with
      fatal := true, deckValid := false, phase := .fault, lastErr := 0xE#4,
      rsp := some 0xE01B#16 })

/-- R102, R113: JB moves card 28 past its next two cyclic successors, which each move one
position back; without 28 it takes the Corrupt fault and changes no card. -/
def Obligations.JokerBMovesTwoPositionsForward : Prop :=
  ∀ s : State, s.GatesOpen →
    (∀ p, s.findCard 28#5 = some p → ∃ t, exec .jb s = .next t ∧
      t = { s with deck := t.deck, rsp := some 0x0000#16 } ∧
      ∀ q, 1 ≤ q → q ≤ 28 → t.cardAt q =
        if q = p then s.cardAt (p % 28 + 1)
        else if q = p % 28 + 1 then s.cardAt ((p + 1) % 28 + 1)
        else if q = (p + 1) % 28 + 1 then 28#5
        else s.cardAt q) ∧
    (s.findCard 28#5 = none → exec .jb s = .next { s with
      fatal := true, deckValid := false, phase := .fault, lastErr := 0xE#4,
      rsp := some 0xE01C#16 })

/-- R103 to R105, R114: TC reads `after ++ middle ++ before`, leaves the slots of the middle
untouched and moves ANCHOR by `b - a`; a missing 27 is reported before a missing 28. -/
def Obligations.TripleCutSwapsTheOuterSegments : Prop :=
  ∀ s : State, s.GatesOpen →
    (∀ pa pb, s.findCard 27#5 = some pa → s.findCard 28#5 = some pb →
      ∃ t, exec .tc s = .next t ∧
        t = { s with deck := t.deck, anchor := t.anchor, rsp := some 0x0000#16 } ∧
        t.linear = s.linear.drop (max pa pb) ++
          (s.linear.take (max pa pb)).drop (min pa pb - 1) ++ s.linear.take (min pa pb - 1) ∧
        (t.anchor.toNat : Int) = ((s.anchor.toNat : Int) + ((min pa pb : Nat) - 1) -
          (28 - (max pa pb : Nat))) % 28 ∧
        ∀ q, min pa pb ≤ q → q ≤ max pa pb →
          t.deck[slotOf s.anchor q] = s.deck[slotOf s.anchor q]) ∧
    (s.findCard 27#5 = none → exec .tc s = .next { s with
      fatal := true, deckValid := false, phase := .fault, lastErr := 0xE#4,
      rsp := some 0xE01B#16 }) ∧
    (s.findCard 27#5 ≠ none → s.findCard 28#5 = none → exec .tc s = .next { s with
      fatal := true, deckValid := false, phase := .fault, lastErr := 0xE#4,
      rsp := some 0xE01C#16 })

/-- R107, R115: CC moves `min(L[28], 27)` cards from the front to just before the anchor; ANCHOR
and the anchor slot stay; it never faults. -/
def Obligations.CountCutRotatesAllButTheAnchor : Prop :=
  ∀ s : State, s.GatesOpen → ∃ t, exec .cc s = .next t ∧
    t = { s with deck := t.deck, rsp := some 0x0000#16 } ∧
    t.linear = (s.linear.take 27).drop (min (s.cardAt 28).toNat 27) ++
      s.linear.take (min (s.cardAt 28).toNat 27) ++ [s.cardAt 28] ∧
    t.deck[slotOf s.anchor 28] = s.deck[slotOf s.anchor 28]

/-- R109, R116: EX reads the candidate `L[min(L[1], 27) + 1]`; below 27 it is the key, else it is
reported with status SENTINEL and KEY stays; neither is an error. -/
def Obligations.ExtractionReportsTheCandidate : Prop :=
  ∀ (s : State) (c : Card), s.GatesOpen → c = s.cardAt (min (s.cardAt 1).toNat 27 + 1) →
    (c.toNat < 27 → exec .ex s = .next { s with
      cand := c, key := c, keyValid := true, rsp := some (rspWord .ok (c.setWidth 8)) }) ∧
    (27 ≤ c.toNat → exec .ex s = .next { s with
      cand := c, keyValid := false, rsp := some (rspWord .sentinel (c.setWidth 8)) })

/-- R108, R111: on a complete deck the four steps never raise Corrupt, and each of them leaves a
complete deck. -/
def Obligations.FourStepsKeepACompleteDeck : Prop :=
  ∀ s : State, DeckComplete s.deck →
    (∃ t, fourSteps s = .ok t ∧ DeckComplete t.deck) ∧
    (∃ t, microJA s = .ok t ∧ DeckComplete t.deck) ∧
    (∃ t, microJB s = .ok t ∧ DeckComplete t.deck) ∧
    (∃ t, microTC s = .ok t ∧ DeckComplete t.deck) ∧
    DeckComplete (microCC s).deck ∧ (microEX s).deck = s.deck

/-- R111, R106: each of the four steps is injective on the linear views of complete decks, and TC
applied twice restores the linear view. -/
def Obligations.EachStepIsUndoneOnLinearViews : Prop :=
  ∀ s s' : State, DeckComplete s.deck → DeckComplete s'.deck →
    (∀ t t', microJA s = .ok t → microJA s' = .ok t' → t.linear = t'.linear →
      s.linear = s'.linear) ∧
    (∀ t t', microJB s = .ok t → microJB s' = .ok t' → t.linear = t'.linear →
      s.linear = s'.linear) ∧
    (∀ t t', microTC s = .ok t → microTC s' = .ok t' → t.linear = t'.linear →
      s.linear = s'.linear) ∧
    ((microCC s).linear = (microCC s').linear → s.linear = s'.linear) ∧
    (∀ t u, microTC s = .ok t → microTC t = .ok u → u.linear = s.linear)

/-! ### The key loop -/

/-- R121, R126, R134 to R137: with the gates open KEY, and a mapper command with a legal operand,
enter the key loop with MODE, FORM and LETTER latched, and give no response yet; ENCC takes letters
of either case. -/
def Obligations.LoopCommandsEnterTheKeyLoop : Prop :=
  ∀ (b : Byte) (s : State), s.GatesOpen →
    exec .key s = .next { s with
      keyValid := false, retry := 0#8, phase := .ja, mode := .keyonly, form := .index,
      letter := 0#5 } ∧
    (1 ≤ b.toNat → b.toNat ≤ 26 →
      exec (.enci b) s = .next { s with
        keyValid := false, retry := 0#8, phase := .ja, mode := .enc, form := .index,
        letter := BitVec.ofNat 5 b.toNat } ∧
      exec (.deci b) s = .next { s with
        keyValid := false, retry := 0#8, phase := .ja, mode := .dec, form := .index,
        letter := BitVec.ofNat 5 b.toNat }) ∧
    (0x41 ≤ b.toNat → b.toNat ≤ 0x5A →
      exec (.encc b) s = .next { s with
        keyValid := false, retry := 0#8, phase := .ja, mode := .enc, form := .character,
        letter := BitVec.ofNat 5 (b.toNat - 0x40) } ∧
      exec (.decc b) s = .next { s with
        keyValid := false, retry := 0#8, phase := .ja, mode := .dec, form := .character,
        letter := BitVec.ofNat 5 (b.toNat - 0x40) }) ∧
    (0x61 ≤ b.toNat → b.toNat ≤ 0x7A →
      exec (.encc b) s = .next { s with
        keyValid := false, retry := 0#8, phase := .ja, mode := .enc, form := .character,
        letter := BitVec.ofNat 5 (b.toNat - 0x60) })

/-- R122: the micro-steps of the phases JA, JB, TC and CC run their micro-operation, advance PHASE
and give no response. -/
def Obligations.TransformPhasesAdvanceInOrder : Prop :=
  ∀ s : State, s.rst = false →
    (∀ t, s.phase = .ja → microJA s.passTime = .ok t → step s = .next { t with phase := .jb }) ∧
    (∀ t, s.phase = .jb → microJB s.passTime = .ok t → step s = .next { t with phase := .tc }) ∧
    (∀ t, s.phase = .tc → microTC s.passTime = .ok t → step s = .next { t with phase := .cc }) ∧
    (s.phase = .cc → step s = .next { microCC s.passTime with phase := .ex })

/-- R128, R165: a sentinel missing in the loop ends it at once with the Corrupt fault; the deck, KEY,
CAND, RETRY and KEY_VALID keep their values. -/
def Obligations.CorruptEndsTheLoopAtOnce : Prop :=
  ∀ (s : State), s.rst = false →
    ((s.phase = .ja ∨ s.phase = .tc) → s.findCard 27#5 = none →
      step s = .next { s.passTime with
        fatal := true, deckValid := false, phase := .fault, lastErr := 0xE#4,
        rsp := some 0xE01B#16 }) ∧
    ((s.phase = .jb ∨ (s.phase = .tc ∧ s.findCard 27#5 ≠ none)) → s.findCard 28#5 = none →
      step s = .next { s.passTime with
        fatal := true, deckValid := false, phase := .fault, lastErr := 0xE#4,
        rsp := some 0xE01C#16 })

/-- R123, R124: the micro-step of phase EX. A joker candidate sends PHASE back to JA and counts in
RETRY, which saturates at 255; any other candidate is the key and completes the command. With MODE = KEYONLY the key is returned
whatever FORM holds; R124 lists only FORM 0 there, so FORM 1 is the model's choice (log entry 11). -/
def Obligations.ExtractionRetriesOrCompletes : Prop :=
  ∀ (s : State) (c : Card), s.rst = false → s.phase = .ex →
    c = s.cardAt (min (s.cardAt 1).toNat 27 + 1) →
    (27 ≤ c.toNat → step s = .next { s.passTime with
      cand := c, keyValid := false, retry := BitVec.ofNat 8 (min 255 (s.retry.toNat + 1)),
      phase := .ja }) ∧
    (c.toNat < 27 → step s = .next { s.passTime with
      cand := c, key := c, keyValid := true, phase := .idle,
      rsp := some (rspWord .ok (match s.mode, s.form with
        | .keyonly, _ => c.setWidth 8
        | .enc, .index => (encShift s.letter c).setWidth 8
        | .enc, .character => 0x40#8 + (encShift s.letter c).setWidth 8
        | .dec, .index => (decShift s.letter c).setWidth 8
        | .dec, .character => 0x40#8 + (decShift s.letter c).setWidth 8)) })

/-- R120, R121: the micro-steps and the big-step loop agree. From the loop entry the engine comes to
rest in a state exactly when the big-step loop ends, and it is the state the loop's end gives. -/
def Obligations.MicroStepsRefineTheBigStepLoop : Prop :=
  ∀ s t : State, s.phase = .ja → s.inputs = [] →
    ((∃ k, steps k s = .next t ∧ t.busy = false) ↔
      ∃ n e, keyLoop n s = some e ∧ t = e.finish)

/-- R125, R176: the loop that does not end stays busy for ever, and the loop stays busy for ever
only if it does not end. -/
def Obligations.EndlessLoopStaysBusyForEver : Prop :=
  ∀ s : State, s.phase = .ja → s.inputs = [] → s.rsp = none →
    ((∀ n, keyLoop n s = none) ↔
      ∀ k, ∃ t, steps k s = .next t ∧ t.busy = true ∧ t.rsp = none)

/-- R23, R126, R188: every cycle takes five micro-steps; RETRY is the number of discarded
candidates, saturated at 255. -/
def Obligations.RetryCountsTheDiscardedCandidates : Prop :=
  ∀ (n : Nat) (s t : State), s.phase = .ja → s.inputs = [] → s.retry = 0#8 →
    (steps (5 * n) s = .next t → t.busy = true → t.phase = .ja ∧ t.retry.toNat = min 255 n) ∧
    (∀ u, steps (5 * n) s = .next u → u.busy = true → steps (5 * (n + 1)) s = .next t →
      t.phase = .idle → t.retry.toNat = min 255 n)

/-- R129, R126, R134 to R137: on a complete deck a key loop that ends delivers a key 1..26, keeps
the deck complete and the other registers, and the response data is in the range of its form. With
MODE = KEYONLY the data is the key whatever FORM holds; for FORM 1 that is the model's choice (log
entry 11). -/
def Obligations.CompletedLoopDeliversALegalKey : Prop :=
  ∀ (k : Nat) (s t : State), s.Inv → s.busy = true → s.inputs = [] → steps k s = .next t →
    t.busy = false →
    t.phase = .idle ∧ DeckComplete t.deck ∧ t.keyValid = true ∧ t.key = t.cand ∧
    1 ≤ t.key.toNat ∧ t.key.toNat ≤ 26 ∧ t.fatal = s.fatal ∧ t.loading = s.loading ∧
    t.deckValid = s.deckValid ∧ t.ldcnt = s.ldcnt ∧ t.lastErr = s.lastErr ∧
    ∃ d : Byte, t.rsp = some (rspWord .ok d) ∧
      (s.mode = .keyonly → d.toNat = t.key.toNat) ∧
      (s.mode ≠ .keyonly → s.form = .index → 1 ≤ d.toNat ∧ d.toNat ≤ 26) ∧
      (s.mode ≠ .keyonly → s.form = .character → 0x41 ≤ d.toNat ∧ d.toNat ≤ 0x5A)

/-- R127: a run of the key loop depends on the linear view of the deck alone: not on the command
that started it, its operand, or any other register. -/
def Obligations.KeyStreamDependsOnTheDeckAlone : Prop :=
  ∀ (k : Nat) (s s' t t' : State), s.phase = .ja → s'.phase = .ja → s.inputs = [] →
    s'.inputs = [] → s.linear = s'.linear → steps k s = .next t → steps k s' = .next t' →
    t.linear = t'.linear ∧ t.phase = t'.phase ∧
    (t.phase = .idle → t.key = t'.key ∧ t.cand = t'.cand)

/-- R116: JA, JB, TC, CC, EX repeated until EX responds OK leave DECK, ANCHOR, KEY, CAND and
KEY_VALID as one KEY command does, with the same last response; RETRY is left as it was. -/
def Obligations.SingleStepsReproduceOneKey : Prop :=
  ∀ (k : Nat) (s u : State) (w : RspWord), s.Ready → s.GatesOpen →
    issue k .key s = some (w, u) → u.fatal = false → u.retry.toNat < 255 →
    ∃ ws t, issueAll 1
        (List.replicate (u.retry.toNat + 1) [Instr.ja, .jb, .tc, .cc, .ex]).flatten s = some (ws, t) ∧
      ws.getLast? = some w ∧ t.deck = u.deck ∧ t.anchor = u.anchor ∧ t.key = u.key ∧
      t.cand = u.cand ∧ t.keyValid = u.keyValid ∧ t.retry = s.retry

/-! ### The letter mapper -/

/-- R130: `enc` is the source's formula, its result is 1..26, and for a key 1..26 it is the adder
form. -/
def Obligations.EncIsTheEncryptionShift : Prop :=
  ∀ i k : Card, 1 ≤ i.toNat → i.toNat ≤ 26 →
    (encShift i k).toNat = (i.toNat + k.toNat - 1) % 26 + 1 ∧
    (1 ≤ k.toNat → k.toNat ≤ 26 → (encShift i k).toNat =
      if i.toNat + k.toNat ≤ 26 then i.toNat + k.toNat else i.toNat + k.toNat - 26)

/-- R131: `dec` is the source's formula under either reading of the inner `mod`, and for a key 1..26
it is the subtractor form. -/
def Obligations.DecIsTheDecryptionShift : Prop :=
  ∀ i k : Card, 1 ≤ i.toNat → i.toNat ≤ 26 → 1 ≤ k.toNat → k.toNat ≤ 26 →
    ∀ d : Int, d = (i.toNat : Int) - (k.toNat : Int) →
      ((decShift i k).toNat : Int) =
        (if (d % 26 + 26) % 26 = 0 then 26 else (d % 26 + 26) % 26) ∧
      ((decShift i k).toNat : Int) =
        (if (d.tmod 26 + 26) % 26 = 0 then 26 else (d.tmod 26 + 26) % 26) ∧
      ((decShift i k).toNat : Int) = if d > 0 then d else d + 26

/-- R132: `dec` undoes `enc` and `enc` undoes `dec`, for all 676 pairs. -/
def Obligations.DecUndoesEnc : Prop :=
  ∀ i k : Card, 1 ≤ i.toNat → i.toNat ≤ 26 → 1 ≤ k.toNat → k.toNat ≤ 26 →
    decShift (encShift i k) k = i ∧ encShift (decShift i k) k = i

/-- R132, R138: the round-trip law. A message of letters, encrypted by ENCC commands and decrypted by
DECC commands on a machine whose deck reads the same, comes back in upper case, and both decks end
alike. `k` bounds the steps of one command, so that the loops end. -/
def Obligations.DecryptionRestoresTheMessage : Prop :=
  ∀ (k : Nat) (msg : List Byte) (s s' t : State) (ws : List RspWord), s.Inv → s'.Inv → s.Ready →
    s'.Ready → s.linear = s'.linear → (∀ c ∈ msg, isLetter c = true) →
    issueAll k (msg.map Instr.encc) s = some (ws, t) →
    (∀ w ∈ ws, statusField w = 0#4 ∧ isUpper (dataField w) = true) ∧
    ∃ t', issueAll k (ws.map fun w => Instr.decc (dataField w)) s' =
        some (msg.map fun c => rspWord .ok (upperOf c), t') ∧ t'.linear = t.linear

/-- R136, 95_test_vectors.md S3: encrypting a message gives the same letters as encrypting it
stripped of non-letters and in upper case, and leaves the same state. -/
def Obligations.EncryptionFiltersTheMessage : Prop :=
  ∀ (k : Nat) (msg : List Byte) (s t : State) (ws : List RspWord), s.Inv → s.Ready →
    s.inputs = [] → issueAll k (msg.map Instr.encc) s = some (ws, t) →
    issueAll k ((msg.filter isLetter).map fun c => Instr.encc (upperOf c)) s =
      some (ws.filter fun w => statusField w = 0#4, t)

/-! ### Frames and whole-machine rules -/

/-- R11, R13, R17, R18, R20 to R24, R43, R48: which commands write which register when `exec` gives a next
state; the ports' inputs and the count of resets are never written. -/
def Obligations.CommandsWriteOnlyTheirRegisters : Prop :=
  ∀ (i : Instr) (s t : State), exec i s = .next t →
    (i ∉ [Instr.ja, .jb, .tc, .cc] → (∀ v, i ≠ .card v) → t.deck = s.deck) ∧
    (i ∉ [Instr.tc, .srst] → (∀ v, i ≠ .card v) → t.anchor = s.anchor) ∧
    (i ∉ [Instr.ex, .srst] → t.key = s.key ∧ t.cand = s.cand) ∧
    (i ∉ [Instr.load, .srst] → (∀ v, i ≠ .card v) → t.ldcnt = s.ldcnt) ∧
    (i ∉ [Instr.key, .srst] → (∀ b, i ≠ .enci b ∧ i ≠ .deci b ∧ i ≠ .encc b ∧ i ≠ .decc b) →
      t.retry = s.retry ∧ t.mode = s.mode ∧ t.form = s.form ∧ t.letter = s.letter) ∧
    (i ∉ [Instr.key, .srst, .load, .ex] → (∀ b, i ≠ .card b ∧ i ≠ .enci b ∧ i ≠ .deci b ∧
      i ≠ .encc b ∧ i ≠ .decc b) → t.keyValid = s.keyValid) ∧
    (i ∉ [Instr.key, .srst, .ja, .jb, .tc] →
      (∀ b, i ≠ .enci b ∧ i ≠ .deci b ∧ i ≠ .encc b ∧ i ≠ .decc b) →
      t.phase = s.phase ∧ t.fatal = s.fatal) ∧
    (i ∉ [Instr.load, .srst, .ja, .jb, .tc] → (∀ v, i ≠ .card v) → t.deckValid = s.deckValid) ∧
    t.inputs = s.inputs ∧ t.resets = s.resets

/-- R62, R121: an accepted command produces exactly one response in its own step, or is a key loop
command that has entered the loop and has none yet. -/
def Obligations.EveryCommandRespondsOrEntersTheLoop : Prop :=
  ∀ (i : Instr) (s t : State), s.busy = false → s.rsp = none → exec i s = .next t →
    (t.busy = false ∧ ∃ st d, t.rsp = some (rspWord st d)) ∨
    (t.phase = .ja ∧ t.rsp = none ∧
      (i = .key ∨ ∃ b, i = .enci b ∨ i = .deci b ∨ i = .encc b ∨ i = .decc b))

/-- R161: a response with status 8..15 writes LASTERR, one with status 0, 1 or 2 leaves it, and
only reset and an accepted SRST clear it: a key loop that completes while SRST is offered does not. -/
def Obligations.LastErrFollowsTheErrorResponses : Prop :=
  ∀ s t : State, step s = .next t → s.rsp = none →
    (∀ w, t.rsp = some w → 8 ≤ (statusField w).toNat → t.lastErr = statusField w) ∧
    (∀ w, t.rsp = some w → (statusField w).toNat < 8 →
      ¬ (s.cmdReady = true ∧ s.offered = some 0x0100#16) → t.lastErr = s.lastErr) ∧
    (t.rsp = none → s.rst = false → t.lastErr = s.lastErr)

/-- R15, R165: FATAL is set only with an ERR_CORRUPT response, and is cleared only by reset and
SRST. -/
def Obligations.FatalIsSetByCorruptAndClearedByReset : Prop :=
  ∀ s t : State, step s = .next t →
    (s.fatal = false → t.fatal = true → (t.rsp = some 0xE01B#16 ∨ t.rsp = some 0xE01C#16) ∧
      t.lastErr = 0xE#4 ∧ t.deckValid = false ∧ t.phase = .fault) ∧
    (s.fatal = true → t.fatal = false → s.rst = true ∨ s.offered = some 0x0100#16)

/-- R12, R15, R17, R20, R121: the control registers are consistent at reset. -/
def Obligations.ResetMeetsTheInvariant : Prop := State.reset.Inv

/-- R13, R15, R17, R19, R20, R24: every step keeps the control registers consistent, from every
consistent state, on corrupted decks and in the FAULT state too. -/
def Obligations.StepKeepsTheControlConsistent : Prop :=
  ∀ s t : State, s.Wf → step s = .next t → t.Wf

/-- R12, R111, R129, R165: every step keeps the deck invariant and never takes the Corrupt fault:
structural corruption cannot be reached by commands. -/
def Obligations.StepKeepsTheDeckInvariant : Prop :=
  ∀ s t : State, s.Inv → step s = .next t → t.Inv

/-- R7: from every consistent state a step answers a next state. -/
def Obligations.StepAnswersFromEveryConsistentState : Prop :=
  ∀ s : State, s.Wf → ∃ t, step s = .next t

/-- Log entry 5: CARD stops by name where LOADING = 1 and the slot `DECK[LDCNT]` does not exist
(R49), and nowhere else does a command stop. -/
def Obligations.OnlyACardPastSlot27Stops : Prop :=
  ∀ (i : Instr) (s : State),
    ((∀ t, exec i s ≠ .next t) ↔
      ∃ v : Byte, i = .card v ∧ s.fatal = false ∧ s.loading = true ∧ 1 ≤ v.toNat ∧
        v.toNat ≤ 28 ∧ 28 ≤ s.ldcnt.toNat ∧ ∀ j : Fin 28, s.deck[j].toNat ≠ v.toNat) ∧
    ((∀ t, exec i s ≠ .next t) → exec i s = .fault .noSuchSlot)

/-- R45 in the model's reading (log entry 8, DEDUCED): two consistent states that differ only in the
physical layout of the deck stay so in every step that is not RDS or RDR 1, with the same response.
`SameView` asks for equal linear views only while a deck is valid, and for equal written slots while a
load is open, where R45 to the letter speaks of the linear views alone. -/
def Obligations.PhysicalLayoutIsInvisible : Prop :=
  ∀ s s' : State, s.Wf → s'.Wf → SameView s s' →
    (∀ n, s.offered ≠ some (encode (.rds n))) → s.offered ≠ some 0x0201#16 →
    ∃ t t', step s = .next t ∧ step s' = .next t' ∧ SameView t t' ∧ t.rsp = t'.rsp

/-- R181, R7: slot contents that no load has written are not observable by any step: two consistent
states that differ only in them stay so, with the same response. -/
def Obligations.UnwrittenSlotsAreUnobservable : Prop :=
  ∀ s s' : State, s.Wf → UnseenDeck s s' →
    ∃ t t', step s = .next t ∧ step s' = .next t' ∧ UnseenDeck t t' ∧ t.rsp = t'.rsp
end

