-- ==== Sys2Proof/Laws/Deck.lean ====
section
/-! SUPPORT. Laws of the deck buffer: slots and positions, the linear view, find, writing slots, and the
deck invariant. -/

namespace Sys2Proof.Machine

/-! ### Slots and positions (R41) -/

@[simp] theorem slotOf_val (a : Card) (p : Nat) : (slotOf a p).val = (a.toNat + p) % 28 := rfl

@[simp] theorem succSlot_val (j : Fin 28) : (succSlot j).val = (j.val + 1) % 28 := rfl

theorem posOf_pos (a : Card) (j : Fin 28) : 1 ≤ posOf a j := by
  unfold posOf; omega

theorem posOf_le (a : Card) (j : Fin 28) : posOf a j ≤ 28 := by
  unfold posOf; omega

theorem slotOf_posOf (a : Card) (j : Fin 28) : slotOf a (posOf a j) = j := by
  apply Fin.ext
  simp only [slotOf_val, posOf]
  omega

theorem posOf_slotOf (a : Card) (p : Nat) (h1 : 1 ≤ p) (h2 : p ≤ 28) : posOf a (slotOf a p) = p := by
  simp only [posOf, slotOf_val]
  omega

theorem slotOf_inj (a : Card) (p q : Nat) (hp : 1 ≤ p) (hp' : p ≤ 28) (hq : 1 ≤ q) (hq' : q ≤ 28)
    (h : slotOf a p = slotOf a q) : p = q := by
  rw [← posOf_slotOf a p hp hp', h, posOf_slotOf a q hq hq']

theorem succSlot_slotOf (a : Card) (p : Nat) : succSlot (slotOf a p) = slotOf a (p % 28 + 1) := by
  apply Fin.ext; simp only [succSlot_val, slotOf_val]; omega

/-- Every slot is read at its position. -/
theorem deck_eq_cardAt (s : State) (j : Fin 28) : s.deck[j] = s.cardAt (posOf s.anchor j) := by
  unfold State.cardAt; simp only [slotOf_posOf]

/-! ### The linear view -/

@[simp] theorem State.linear_length (s : State) : s.linear.length = 28 := by
  simp [State.linear]

theorem State.linear_getElem (s : State) (n : Nat) (h : n < 28) :
    s.linear[n]'(by simpa using h) = s.cardAt (n + 1) := by
  simp [State.linear, Nat.add_comm]

/-- Two states read the same from front to anchor exactly when they agree at every position. -/
theorem State.linear_eq_iff (s t : State) :
    s.linear = t.linear ↔ ∀ p, 1 ≤ p → p ≤ 28 → s.cardAt p = t.cardAt p := by
  constructor
  · intro h p h1 h2
    have e1 := s.linear_getElem (p - 1) (by omega)
    have e2 := t.linear_getElem (p - 1) (by omega)
    rw [Nat.sub_add_cancel h1] at e1 e2
    rw [← e1, ← e2]; simp only [h]
  · intro h
    unfold State.linear
    apply List.map_congr_left
    intro p hp
    rw [List.mem_range'_1] at hp
    exact h p (by omega) (by omega)

/-! ### find (R44) -/

theorem State.findCard_eq_some (s : State) (v : Card) (p : Nat) :
    s.findCard v = some p ↔
      1 ≤ p ∧ p ≤ 28 ∧ s.cardAt p = v ∧ ∀ q, 1 ≤ q → q < p → s.cardAt q ≠ v := by
  unfold State.findCard
  rw [List.find?_range'_eq_some]
  simp only [beq_iff_eq, Bool.not_eq_true', List.mem_range'_1, beq_eq_false_iff_ne]
  constructor
  · rintro ⟨h1, h2, h3⟩; exact ⟨by omega, by omega, h1, fun q a b => h3 q a b⟩
  · rintro ⟨h1, h2, h3, h4⟩; exact ⟨h3, by omega, fun q a b => h4 q a b⟩

theorem State.findCard_eq_none (s : State) (v : Card) :
    s.findCard v = none ↔ ∀ p, 1 ≤ p → p ≤ 28 → s.cardAt p ≠ v := by
  unfold State.findCard
  rw [List.find?_eq_none]
  simp only [beq_iff_eq, List.mem_range'_1]
  exact ⟨fun h p a b => h p (by omega), fun h p a => h p (by omega) (by omega)⟩

/-- `find` reads the linear view only. -/
theorem State.findCard_congr (s t : State) (h : s.linear = t.linear) (v : Card) :
    s.findCard v = t.findCard v := by
  rw [State.linear_eq_iff] at h
  cases e : t.findCard v with
  | none =>
    rw [State.findCard_eq_none] at e ⊢
    intro p a b; rw [h p a b]; exact e p a b
  | some p =>
    rw [State.findCard_eq_some] at e ⊢
    obtain ⟨a, b, c, d⟩ := e
    exact ⟨a, b, by rw [h p a b]; exact c, fun q a' b' => by rw [h q a' (by omega)]; exact d q a' b'⟩

/-! ### Writing slots -/

theorem swapSlots_getElem (d : Deck) (a b j : Fin 28) :
    (swapSlots d a b)[j] = if j = b then d[a] else if j = a then d[b] else d[j] := by
  simp only [swapSlots, Fin.getElem_fin, Vector.getElem_set]
  by_cases h1 : j = b
  · subst h1; simp
  · have : ¬ (b.val = j.val) := fun h => h1 (Fin.ext h.symm)
    by_cases h2 : j = a
    · subst h2; simp [this, h1]
    · have h3 : ¬ (a.val = j.val) := fun h => h2 (Fin.ext h.symm)
      simp [this, h3, h1, h2]

/-! ### The deck invariant (R12) -/

/-- The deck invariant says that the slots hold distinct values in 1..28. -/
theorem deckComplete_iff (d : Deck) : DeckComplete d ↔ LoadedDistinct d 28 := by
  unfold DeckComplete LoadedDistinct
  constructor
  · intro h
    have hmem : ∀ i : Fin 28, d[i].toNat ∈ List.range' 1 28 := by
      intro i
      apply h.subset
      apply List.mem_map_of_mem
      simp
    have hnd : (d.toList.map BitVec.toNat).Nodup := h.nodup_iff.mpr (List.nodup_range')
    refine ⟨fun i _ => ?_, fun i j _ _ hij => ?_⟩
    · have := hmem i
      rw [List.mem_range'_1] at this; omega
    · rw [List.nodup_iff_injective_get] at hnd
      have := @hnd ⟨i.val, by simp⟩ ⟨j.val, by simp⟩ (by simpa using congrArg BitVec.toNat hij)
      exact Fin.ext (by simpa using this)
  · rintro ⟨h1, h2⟩
    have hnd : (d.toList.map BitVec.toNat).Nodup := by
      rw [List.nodup_iff_injective_get]
      intro i j hij
      have hi : i.val < 28 := by simpa using i.isLt
      have hj : j.val < 28 := by simpa using j.isLt
      have := h2 ⟨i.val, hi⟩ ⟨j.val, hj⟩ hi hj (BitVec.eq_of_toNat_eq (by simpa using hij))
      exact Fin.ext (by simpa using this)
    have hsub : (d.toList.map BitVec.toNat) ⊆ List.range' 1 28 := by
      intro x hx
      rw [List.mem_map] at hx
      obtain ⟨c, hc, rfl⟩ := hx
      obtain ⟨i, hi, rfl⟩ := List.getElem_of_mem hc
      have hi' : i < 28 := by simpa using hi
      have := h1 ⟨i, hi'⟩ hi'
      rw [List.mem_range'_1]
      simp at this ⊢; omega
    exact (List.subperm_of_subset hnd hsub).perm_of_length_le (by simp)

/-- A deck that is read from a complete deck through an injection of the slots is complete. -/
theorem DeckComplete.reindex {d e : Deck} (h : DeckComplete d) (f : Fin 28 → Fin 28)
    (hf : Function.Injective f) (he : ∀ j, e[j] = d[f j]) : DeckComplete e := by
  rw [deckComplete_iff] at h ⊢
  refine ⟨fun i _ => ?_, fun i j _ _ hij => ?_⟩
  · rw [he]; exact h.1 _ (f i).isLt
  · rw [he, he] at hij; exact hf (h.2 _ _ (f i).isLt (f j).isLt hij)

/-- On a complete deck every card 1..28 is at some position, and at only one. -/
theorem DeckComplete.cardAt_inj {s : State} (h : DeckComplete s.deck) {p q : Nat} (hp : 1 ≤ p)
    (hp' : p ≤ 28) (hq : 1 ≤ q) (hq' : q ≤ 28) (e : s.cardAt p = s.cardAt q) : p = q := by
  rw [deckComplete_iff] at h
  exact slotOf_inj s.anchor p q hp hp' hq hq' (h.2 _ _ (Fin.isLt _) (Fin.isLt _) e)

theorem DeckComplete.exists_cardAt {s : State} (h : DeckComplete s.deck) (v : Card)
    (h1 : 1 ≤ v.toNat) (h2 : v.toNat ≤ 28) : ∃ p, 1 ≤ p ∧ p ≤ 28 ∧ s.cardAt p = v := by
  have hm : v.toNat ∈ s.deck.toList.map BitVec.toNat :=
    h.symm.subset (by rw [List.mem_range'_1]; omega)
  rw [List.mem_map] at hm
  obtain ⟨c, hc, e⟩ := hm
  obtain ⟨i, hi, rfl⟩ := List.getElem_of_mem hc
  have hi' : i < 28 := by simpa using hi
  refine ⟨posOf s.anchor ⟨i, hi'⟩, posOf_pos _ _, posOf_le _ _, ?_⟩
  rw [← deck_eq_cardAt]
  exact BitVec.eq_of_toNat_eq (by simpa using e)

theorem DeckComplete.findCard_isSome {s : State} (h : DeckComplete s.deck) (v : Card)
    (h1 : 1 ≤ v.toNat) (h2 : v.toNat ≤ 28) : ∃ p, s.findCard v = some p := by
  obtain ⟨p, a, b, c⟩ := h.exists_cardAt v h1 h2
  cases e : s.findCard v with
  | some q => exact ⟨q, rfl⟩
  | none => rw [State.findCard_eq_none] at e; exact absurd c (e p a b)

end Sys2Proof.Machine
end

