-- ==== Sys2Proof/Laws/State.lean ====
section
/-! SUPPORT. One lemma per field per named update of State, so that no proof unfolds a record update. -/

namespace Sys2Proof.Machine

/-! ### respond -/

@[simp] theorem State.respond_deck (s : State) (st : Status) (d : Byte) :
    (s.respond st d).deck = s.deck := rfl

@[simp] theorem State.respond_anchor (s : State) (st : Status) (d : Byte) :
    (s.respond st d).anchor = s.anchor := rfl

@[simp] theorem State.respond_phase (s : State) (st : Status) (d : Byte) :
    (s.respond st d).phase = s.phase := rfl

@[simp] theorem State.respond_fatal (s : State) (st : Status) (d : Byte) :
    (s.respond st d).fatal = s.fatal := rfl

@[simp] theorem State.respond_loading (s : State) (st : Status) (d : Byte) :
    (s.respond st d).loading = s.loading := rfl

@[simp] theorem State.respond_deckValid (s : State) (st : Status) (d : Byte) :
    (s.respond st d).deckValid = s.deckValid := rfl

@[simp] theorem State.respond_keyValid (s : State) (st : Status) (d : Byte) :
    (s.respond st d).keyValid = s.keyValid := rfl

@[simp] theorem State.respond_lastErr (s : State) (st : Status) (d : Byte) :
    (s.respond st d).lastErr = nextLastErr st s.lastErr := rfl

@[simp] theorem State.respond_ldcnt (s : State) (st : Status) (d : Byte) :
    (s.respond st d).ldcnt = s.ldcnt := rfl

@[simp] theorem State.respond_key (s : State) (st : Status) (d : Byte) :
    (s.respond st d).key = s.key := rfl

@[simp] theorem State.respond_cand (s : State) (st : Status) (d : Byte) :
    (s.respond st d).cand = s.cand := rfl

@[simp] theorem State.respond_retry (s : State) (st : Status) (d : Byte) :
    (s.respond st d).retry = s.retry := rfl

@[simp] theorem State.respond_mode (s : State) (st : Status) (d : Byte) :
    (s.respond st d).mode = s.mode := rfl

@[simp] theorem State.respond_form (s : State) (st : Status) (d : Byte) :
    (s.respond st d).form = s.form := rfl

@[simp] theorem State.respond_letter (s : State) (st : Status) (d : Byte) :
    (s.respond st d).letter = s.letter := rfl

@[simp] theorem State.respond_rsp (s : State) (st : Status) (d : Byte) :
    (s.respond st d).rsp = some (rspWord st d) := rfl

@[simp] theorem State.respond_inputs (s : State) (st : Status) (d : Byte) :
    (s.respond st d).inputs = s.inputs := rfl

@[simp] theorem State.respond_resets (s : State) (st : Status) (d : Byte) :
    (s.respond st d).resets = s.resets := rfl

/-! ### raiseCorrupt -/

@[simp] theorem State.raiseCorrupt_deck (s : State) (v : Card) :
    (s.raiseCorrupt v).deck = s.deck := rfl

@[simp] theorem State.raiseCorrupt_anchor (s : State) (v : Card) :
    (s.raiseCorrupt v).anchor = s.anchor := rfl

@[simp] theorem State.raiseCorrupt_phase (s : State) (v : Card) :
    (s.raiseCorrupt v).phase = .fault := rfl

@[simp] theorem State.raiseCorrupt_fatal (s : State) (v : Card) :
    (s.raiseCorrupt v).fatal = true := rfl

@[simp] theorem State.raiseCorrupt_loading (s : State) (v : Card) :
    (s.raiseCorrupt v).loading = s.loading := rfl

@[simp] theorem State.raiseCorrupt_deckValid (s : State) (v : Card) :
    (s.raiseCorrupt v).deckValid = false := rfl

@[simp] theorem State.raiseCorrupt_keyValid (s : State) (v : Card) :
    (s.raiseCorrupt v).keyValid = s.keyValid := rfl

@[simp] theorem State.raiseCorrupt_lastErr (s : State) (v : Card) :
    (s.raiseCorrupt v).lastErr = 0xE#4 := rfl

@[simp] theorem State.raiseCorrupt_ldcnt (s : State) (v : Card) :
    (s.raiseCorrupt v).ldcnt = s.ldcnt := rfl

@[simp] theorem State.raiseCorrupt_key (s : State) (v : Card) :
    (s.raiseCorrupt v).key = s.key := rfl

@[simp] theorem State.raiseCorrupt_cand (s : State) (v : Card) :
    (s.raiseCorrupt v).cand = s.cand := rfl

@[simp] theorem State.raiseCorrupt_retry (s : State) (v : Card) :
    (s.raiseCorrupt v).retry = s.retry := rfl

@[simp] theorem State.raiseCorrupt_mode (s : State) (v : Card) :
    (s.raiseCorrupt v).mode = s.mode := rfl

@[simp] theorem State.raiseCorrupt_form (s : State) (v : Card) :
    (s.raiseCorrupt v).form = s.form := rfl

@[simp] theorem State.raiseCorrupt_letter (s : State) (v : Card) :
    (s.raiseCorrupt v).letter = s.letter := rfl

@[simp] theorem State.raiseCorrupt_rsp (s : State) (v : Card) :
    (s.raiseCorrupt v).rsp = some (rspWord .errCorrupt (zext v)) := rfl

@[simp] theorem State.raiseCorrupt_inputs (s : State) (v : Card) :
    (s.raiseCorrupt v).inputs = s.inputs := rfl

@[simp] theorem State.raiseCorrupt_resets (s : State) (v : Card) :
    (s.raiseCorrupt v).resets = s.resets := rfl

/-! ### resetRegisters -/

@[simp] theorem State.resetRegisters_deck (s : State) :
    s.resetRegisters.deck = s.deck := rfl

@[simp] theorem State.resetRegisters_anchor (s : State) :
    s.resetRegisters.anchor = 27#5 := rfl

@[simp] theorem State.resetRegisters_phase (s : State) :
    s.resetRegisters.phase = .idle := rfl

@[simp] theorem State.resetRegisters_fatal (s : State) :
    s.resetRegisters.fatal = false := rfl

@[simp] theorem State.resetRegisters_loading (s : State) :
    s.resetRegisters.loading = false := rfl

@[simp] theorem State.resetRegisters_deckValid (s : State) :
    s.resetRegisters.deckValid = false := rfl

@[simp] theorem State.resetRegisters_keyValid (s : State) :
    s.resetRegisters.keyValid = false := rfl

@[simp] theorem State.resetRegisters_lastErr (s : State) :
    s.resetRegisters.lastErr = 0#4 := rfl

@[simp] theorem State.resetRegisters_ldcnt (s : State) :
    s.resetRegisters.ldcnt = 0#5 := rfl

@[simp] theorem State.resetRegisters_key (s : State) :
    s.resetRegisters.key = 0#5 := rfl

@[simp] theorem State.resetRegisters_cand (s : State) :
    s.resetRegisters.cand = 0#5 := rfl

@[simp] theorem State.resetRegisters_retry (s : State) :
    s.resetRegisters.retry = 0#8 := rfl

@[simp] theorem State.resetRegisters_mode (s : State) :
    s.resetRegisters.mode = .keyonly := rfl

@[simp] theorem State.resetRegisters_form (s : State) :
    s.resetRegisters.form = .index := rfl

@[simp] theorem State.resetRegisters_letter (s : State) :
    s.resetRegisters.letter = 0#5 := rfl

@[simp] theorem State.resetRegisters_rsp (s : State) :
    s.resetRegisters.rsp = s.rsp := rfl

@[simp] theorem State.resetRegisters_inputs (s : State) :
    s.resetRegisters.inputs = s.inputs := rfl

@[simp] theorem State.resetRegisters_resets (s : State) :
    s.resetRegisters.resets = s.resets := rfl

/-! ### hardReset -/

@[simp] theorem State.hardReset_deck (s : State) :
    s.hardReset.deck = Config.resetDeck s.resets := rfl

@[simp] theorem State.hardReset_anchor (s : State) :
    s.hardReset.anchor = 27#5 := rfl

@[simp] theorem State.hardReset_phase (s : State) :
    s.hardReset.phase = .idle := rfl

@[simp] theorem State.hardReset_fatal (s : State) :
    s.hardReset.fatal = false := rfl

@[simp] theorem State.hardReset_loading (s : State) :
    s.hardReset.loading = false := rfl

@[simp] theorem State.hardReset_deckValid (s : State) :
    s.hardReset.deckValid = false := rfl

@[simp] theorem State.hardReset_keyValid (s : State) :
    s.hardReset.keyValid = false := rfl

@[simp] theorem State.hardReset_lastErr (s : State) :
    s.hardReset.lastErr = 0#4 := rfl

@[simp] theorem State.hardReset_ldcnt (s : State) :
    s.hardReset.ldcnt = 0#5 := rfl

@[simp] theorem State.hardReset_key (s : State) :
    s.hardReset.key = 0#5 := rfl

@[simp] theorem State.hardReset_cand (s : State) :
    s.hardReset.cand = 0#5 := rfl

@[simp] theorem State.hardReset_retry (s : State) :
    s.hardReset.retry = 0#8 := rfl

@[simp] theorem State.hardReset_mode (s : State) :
    s.hardReset.mode = .keyonly := rfl

@[simp] theorem State.hardReset_form (s : State) :
    s.hardReset.form = .index := rfl

@[simp] theorem State.hardReset_letter (s : State) :
    s.hardReset.letter = 0#5 := rfl

@[simp] theorem State.hardReset_rsp (s : State) :
    s.hardReset.rsp = none := rfl

@[simp] theorem State.hardReset_inputs (s : State) :
    s.hardReset.inputs = s.inputs.tail := rfl

@[simp] theorem State.hardReset_resets (s : State) :
    s.hardReset.resets = s.resets + 1 := rfl

/-! ### loopEntry -/

@[simp] theorem State.loopEntry_deck (s : State) (m : Mode) (f : Form) (l : Card) :
    (s.loopEntry m f l).deck = s.deck := rfl

@[simp] theorem State.loopEntry_anchor (s : State) (m : Mode) (f : Form) (l : Card) :
    (s.loopEntry m f l).anchor = s.anchor := rfl

@[simp] theorem State.loopEntry_phase (s : State) (m : Mode) (f : Form) (l : Card) :
    (s.loopEntry m f l).phase = .ja := rfl

@[simp] theorem State.loopEntry_fatal (s : State) (m : Mode) (f : Form) (l : Card) :
    (s.loopEntry m f l).fatal = s.fatal := rfl

@[simp] theorem State.loopEntry_loading (s : State) (m : Mode) (f : Form) (l : Card) :
    (s.loopEntry m f l).loading = s.loading := rfl

@[simp] theorem State.loopEntry_deckValid (s : State) (m : Mode) (f : Form) (l : Card) :
    (s.loopEntry m f l).deckValid = s.deckValid := rfl

@[simp] theorem State.loopEntry_keyValid (s : State) (m : Mode) (f : Form) (l : Card) :
    (s.loopEntry m f l).keyValid = false := rfl

@[simp] theorem State.loopEntry_lastErr (s : State) (m : Mode) (f : Form) (l : Card) :
    (s.loopEntry m f l).lastErr = s.lastErr := rfl

@[simp] theorem State.loopEntry_ldcnt (s : State) (m : Mode) (f : Form) (l : Card) :
    (s.loopEntry m f l).ldcnt = s.ldcnt := rfl

@[simp] theorem State.loopEntry_key (s : State) (m : Mode) (f : Form) (l : Card) :
    (s.loopEntry m f l).key = s.key := rfl

@[simp] theorem State.loopEntry_cand (s : State) (m : Mode) (f : Form) (l : Card) :
    (s.loopEntry m f l).cand = s.cand := rfl

@[simp] theorem State.loopEntry_retry (s : State) (m : Mode) (f : Form) (l : Card) :
    (s.loopEntry m f l).retry = 0#8 := rfl

@[simp] theorem State.loopEntry_mode (s : State) (m : Mode) (f : Form) (l : Card) :
    (s.loopEntry m f l).mode = m := rfl

@[simp] theorem State.loopEntry_form (s : State) (m : Mode) (f : Form) (l : Card) :
    (s.loopEntry m f l).form = f := rfl

@[simp] theorem State.loopEntry_letter (s : State) (m : Mode) (f : Form) (l : Card) :
    (s.loopEntry m f l).letter = l := rfl

@[simp] theorem State.loopEntry_rsp (s : State) (m : Mode) (f : Form) (l : Card) :
    (s.loopEntry m f l).rsp = s.rsp := rfl

@[simp] theorem State.loopEntry_inputs (s : State) (m : Mode) (f : Form) (l : Card) :
    (s.loopEntry m f l).inputs = s.inputs := rfl

@[simp] theorem State.loopEntry_resets (s : State) (m : Mode) (f : Form) (l : Card) :
    (s.loopEntry m f l).resets = s.resets := rfl

/-! ### dropInput -/

@[simp] theorem State.dropInput_deck (s : State) :
    s.dropInput.deck = s.deck := rfl

@[simp] theorem State.dropInput_anchor (s : State) :
    s.dropInput.anchor = s.anchor := rfl

@[simp] theorem State.dropInput_phase (s : State) :
    s.dropInput.phase = s.phase := rfl

@[simp] theorem State.dropInput_fatal (s : State) :
    s.dropInput.fatal = s.fatal := rfl

@[simp] theorem State.dropInput_loading (s : State) :
    s.dropInput.loading = s.loading := rfl

@[simp] theorem State.dropInput_deckValid (s : State) :
    s.dropInput.deckValid = s.deckValid := rfl

@[simp] theorem State.dropInput_keyValid (s : State) :
    s.dropInput.keyValid = s.keyValid := rfl

@[simp] theorem State.dropInput_lastErr (s : State) :
    s.dropInput.lastErr = s.lastErr := rfl

@[simp] theorem State.dropInput_ldcnt (s : State) :
    s.dropInput.ldcnt = s.ldcnt := rfl

@[simp] theorem State.dropInput_key (s : State) :
    s.dropInput.key = s.key := rfl

@[simp] theorem State.dropInput_cand (s : State) :
    s.dropInput.cand = s.cand := rfl

@[simp] theorem State.dropInput_retry (s : State) :
    s.dropInput.retry = s.retry := rfl

@[simp] theorem State.dropInput_mode (s : State) :
    s.dropInput.mode = s.mode := rfl

@[simp] theorem State.dropInput_form (s : State) :
    s.dropInput.form = s.form := rfl

@[simp] theorem State.dropInput_letter (s : State) :
    s.dropInput.letter = s.letter := rfl

@[simp] theorem State.dropInput_rsp (s : State) :
    s.dropInput.rsp = s.rsp := rfl

@[simp] theorem State.dropInput_inputs (s : State) :
    s.dropInput.inputs = s.inputs.tail := rfl

@[simp] theorem State.dropInput_resets (s : State) :
    s.dropInput.resets = s.resets := rfl

/-! ### passTime -/

@[simp] theorem State.passTime_deck (s : State) :
    s.passTime.deck = s.deck := by
  unfold State.passTime; split <;> rfl

@[simp] theorem State.passTime_anchor (s : State) :
    s.passTime.anchor = s.anchor := by
  unfold State.passTime; split <;> rfl

@[simp] theorem State.passTime_phase (s : State) :
    s.passTime.phase = s.phase := by
  unfold State.passTime; split <;> rfl

@[simp] theorem State.passTime_fatal (s : State) :
    s.passTime.fatal = s.fatal := by
  unfold State.passTime; split <;> rfl

@[simp] theorem State.passTime_loading (s : State) :
    s.passTime.loading = s.loading := by
  unfold State.passTime; split <;> rfl

@[simp] theorem State.passTime_deckValid (s : State) :
    s.passTime.deckValid = s.deckValid := by
  unfold State.passTime; split <;> rfl

@[simp] theorem State.passTime_keyValid (s : State) :
    s.passTime.keyValid = s.keyValid := by
  unfold State.passTime; split <;> rfl

@[simp] theorem State.passTime_lastErr (s : State) :
    s.passTime.lastErr = s.lastErr := by
  unfold State.passTime; split <;> rfl

@[simp] theorem State.passTime_ldcnt (s : State) :
    s.passTime.ldcnt = s.ldcnt := by
  unfold State.passTime; split <;> rfl

@[simp] theorem State.passTime_key (s : State) :
    s.passTime.key = s.key := by
  unfold State.passTime; split <;> rfl

@[simp] theorem State.passTime_cand (s : State) :
    s.passTime.cand = s.cand := by
  unfold State.passTime; split <;> rfl

@[simp] theorem State.passTime_retry (s : State) :
    s.passTime.retry = s.retry := by
  unfold State.passTime; split <;> rfl

@[simp] theorem State.passTime_mode (s : State) :
    s.passTime.mode = s.mode := by
  unfold State.passTime; split <;> rfl

@[simp] theorem State.passTime_form (s : State) :
    s.passTime.form = s.form := by
  unfold State.passTime; split <;> rfl

@[simp] theorem State.passTime_letter (s : State) :
    s.passTime.letter = s.letter := by
  unfold State.passTime; split <;> rfl

@[simp] theorem State.passTime_rsp (s : State) :
    s.passTime.rsp = s.rsp := by
  unfold State.passTime; split <;> rfl

@[simp] theorem State.passTime_resets (s : State) :
    s.passTime.resets = s.resets := by
  unfold State.passTime; split <;> rfl

/-! ### serveResponse -/

@[simp] theorem State.serveResponse_deck (s : State) :
    s.serveResponse.deck = s.deck := by
  unfold State.serveResponse; split <;> simp_all

@[simp] theorem State.serveResponse_anchor (s : State) :
    s.serveResponse.anchor = s.anchor := by
  unfold State.serveResponse; split <;> simp_all

@[simp] theorem State.serveResponse_phase (s : State) :
    s.serveResponse.phase = s.phase := by
  unfold State.serveResponse; split <;> simp_all

@[simp] theorem State.serveResponse_fatal (s : State) :
    s.serveResponse.fatal = s.fatal := by
  unfold State.serveResponse; split <;> simp_all

@[simp] theorem State.serveResponse_loading (s : State) :
    s.serveResponse.loading = s.loading := by
  unfold State.serveResponse; split <;> simp_all

@[simp] theorem State.serveResponse_deckValid (s : State) :
    s.serveResponse.deckValid = s.deckValid := by
  unfold State.serveResponse; split <;> simp_all

@[simp] theorem State.serveResponse_keyValid (s : State) :
    s.serveResponse.keyValid = s.keyValid := by
  unfold State.serveResponse; split <;> simp_all

@[simp] theorem State.serveResponse_lastErr (s : State) :
    s.serveResponse.lastErr = s.lastErr := by
  unfold State.serveResponse; split <;> simp_all

@[simp] theorem State.serveResponse_ldcnt (s : State) :
    s.serveResponse.ldcnt = s.ldcnt := by
  unfold State.serveResponse; split <;> simp_all

@[simp] theorem State.serveResponse_key (s : State) :
    s.serveResponse.key = s.key := by
  unfold State.serveResponse; split <;> simp_all

@[simp] theorem State.serveResponse_cand (s : State) :
    s.serveResponse.cand = s.cand := by
  unfold State.serveResponse; split <;> simp_all

@[simp] theorem State.serveResponse_retry (s : State) :
    s.serveResponse.retry = s.retry := by
  unfold State.serveResponse; split <;> simp_all

@[simp] theorem State.serveResponse_mode (s : State) :
    s.serveResponse.mode = s.mode := by
  unfold State.serveResponse; split <;> simp_all

@[simp] theorem State.serveResponse_form (s : State) :
    s.serveResponse.form = s.form := by
  unfold State.serveResponse; split <;> simp_all

@[simp] theorem State.serveResponse_letter (s : State) :
    s.serveResponse.letter = s.letter := by
  unfold State.serveResponse; split <;> simp_all

@[simp] theorem State.serveResponse_rsp (s : State) :
    s.serveResponse.rsp = if s.rspReady then none else s.rsp := by
  unfold State.serveResponse; split <;> simp_all

@[simp] theorem State.serveResponse_resets (s : State) :
    s.serveResponse.resets = s.resets := by
  unfold State.serveResponse; split <;> simp_all

/-! ### microEX -/

@[simp] theorem microEX_deck (s : State) :
    (microEX s).deck = s.deck := by
  unfold microEX; split <;> simp_all

@[simp] theorem microEX_anchor (s : State) :
    (microEX s).anchor = s.anchor := by
  unfold microEX; split <;> simp_all

@[simp] theorem microEX_phase (s : State) :
    (microEX s).phase = s.phase := by
  unfold microEX; split <;> simp_all

@[simp] theorem microEX_fatal (s : State) :
    (microEX s).fatal = s.fatal := by
  unfold microEX; split <;> simp_all

@[simp] theorem microEX_loading (s : State) :
    (microEX s).loading = s.loading := by
  unfold microEX; split <;> simp_all

@[simp] theorem microEX_deckValid (s : State) :
    (microEX s).deckValid = s.deckValid := by
  unfold microEX; split <;> simp_all

@[simp] theorem microEX_keyValid (s : State) :
    (microEX s).keyValid = accepts s.candidate := by
  unfold microEX; split <;> simp_all

@[simp] theorem microEX_lastErr (s : State) :
    (microEX s).lastErr = s.lastErr := by
  unfold microEX; split <;> simp_all

@[simp] theorem microEX_ldcnt (s : State) :
    (microEX s).ldcnt = s.ldcnt := by
  unfold microEX; split <;> simp_all

@[simp] theorem microEX_key (s : State) :
    (microEX s).key = if accepts s.candidate then s.candidate else s.key := by
  unfold microEX; split <;> simp_all

@[simp] theorem microEX_cand (s : State) :
    (microEX s).cand = s.candidate := by
  unfold microEX; split <;> simp_all

@[simp] theorem microEX_retry (s : State) :
    (microEX s).retry = s.retry := by
  unfold microEX; split <;> simp_all

@[simp] theorem microEX_mode (s : State) :
    (microEX s).mode = s.mode := by
  unfold microEX; split <;> simp_all

@[simp] theorem microEX_form (s : State) :
    (microEX s).form = s.form := by
  unfold microEX; split <;> simp_all

@[simp] theorem microEX_letter (s : State) :
    (microEX s).letter = s.letter := by
  unfold microEX; split <;> simp_all

@[simp] theorem microEX_rsp (s : State) :
    (microEX s).rsp = s.rsp := by
  unfold microEX; split <;> simp_all

@[simp] theorem microEX_inputs (s : State) :
    (microEX s).inputs = s.inputs := by
  unfold microEX; split <;> simp_all

@[simp] theorem microEX_resets (s : State) :
    (microEX s).resets = s.resets := by
  unfold microEX; split <;> simp_all

/-! ### microCC -/

@[simp] theorem microCC_anchor (s : State) :
    (microCC s).anchor = s.anchor := by
  simp only [microCC]

@[simp] theorem microCC_phase (s : State) :
    (microCC s).phase = s.phase := by
  simp only [microCC]

@[simp] theorem microCC_fatal (s : State) :
    (microCC s).fatal = s.fatal := by
  simp only [microCC]

@[simp] theorem microCC_loading (s : State) :
    (microCC s).loading = s.loading := by
  simp only [microCC]

@[simp] theorem microCC_deckValid (s : State) :
    (microCC s).deckValid = s.deckValid := by
  simp only [microCC]

@[simp] theorem microCC_keyValid (s : State) :
    (microCC s).keyValid = s.keyValid := by
  simp only [microCC]

@[simp] theorem microCC_lastErr (s : State) :
    (microCC s).lastErr = s.lastErr := by
  simp only [microCC]

@[simp] theorem microCC_ldcnt (s : State) :
    (microCC s).ldcnt = s.ldcnt := by
  simp only [microCC]

@[simp] theorem microCC_key (s : State) :
    (microCC s).key = s.key := by
  simp only [microCC]

@[simp] theorem microCC_cand (s : State) :
    (microCC s).cand = s.cand := by
  simp only [microCC]

@[simp] theorem microCC_retry (s : State) :
    (microCC s).retry = s.retry := by
  simp only [microCC]

@[simp] theorem microCC_mode (s : State) :
    (microCC s).mode = s.mode := by
  simp only [microCC]

@[simp] theorem microCC_form (s : State) :
    (microCC s).form = s.form := by
  simp only [microCC]

@[simp] theorem microCC_letter (s : State) :
    (microCC s).letter = s.letter := by
  simp only [microCC]

@[simp] theorem microCC_rsp (s : State) :
    (microCC s).rsp = s.rsp := by
  simp only [microCC]

@[simp] theorem microCC_inputs (s : State) :
    (microCC s).inputs = s.inputs := by
  simp only [microCC]

@[simp] theorem microCC_resets (s : State) :
    (microCC s).resets = s.resets := by
  simp only [microCC]

end Sys2Proof.Machine
end

