-- ==== Sys2Proof/Laws/Ops.lean ====
section
/-! SUPPORT. What the shared operations can do, said once: the gates of R163, responses, and the
micro-operations' two outcomes. -/

namespace Sys2Proof.Machine

/-! ### Gates -/

theorem fatalGate_open {s : State} (h : s.fatal = false) (k : Result) : fatalGate s k = k := by
  simp [fatalGate, h]

theorem loadingGate_open {s : State} (h : s.loading = false) (k : Result) :
    loadingGate s k = k := by
  simp [loadingGate, h]

theorem deckGate_open {s : State} (h : s.deckValid = true) (k : Result) : deckGate s k = k := by
  simp [deckGate, h]

theorem cipherGates_open {s : State} (h : s.GatesOpen) (k : Result) : cipherGates s k = k := by
  rw [cipherGates, fatalGate_open h.1, loadingGate_open h.2.1, deckGate_open h.2.2]

/-- A command behind all three gates answers next in one of four ways: refused by one of the gates,
or by its own effect with the gates open. -/
theorem cipherGates_next {s t : State} {k : Result} (h : cipherGates s k = .next t) :
    (s.fatal = true ∧ t = s.respond .errFatal 0#8) ∨
    (s.fatal = false ∧ s.loading = true ∧
      t = { s with loading := false }.respond .errCfgLen (zext s.ldcnt)) ∨
    (s.fatal = false ∧ s.loading = false ∧ s.deckValid = false ∧ t = s.respond .errNodeck 0#8) ∨
    (s.GatesOpen ∧ k = .next t) := by
  unfold cipherGates fatalGate loadingGate deckGate answer at h
  cases hf : s.fatal <;> cases hl : s.loading <;> cases hd : s.deckValid <;>
    simp [hf, hl, hd] at h <;> simp [← h, hl, State.GatesOpen, hf, hd]

/-! ### Responses -/

theorem nextLastErr_error {st : Status} (h : st.isError = true) (old : BitVec 4) :
    nextLastErr st old = st.code := by simp [nextLastErr, h]

theorem nextLastErr_normal {st : Status} (h : st.isError = false) (old : BitVec 4) :
    nextLastErr st old = old := by simp [nextLastErr, h]

@[simp] theorem statusField_rspWord (st : Status) (d : Byte) :
    statusField (rspWord st d) = st.code := by
  cases st <;> simp only [statusField, rspWord, Status.code] <;> revert d <;> decide

@[simp] theorem dataField_rspWord (st : Status) (d : Byte) : dataField (rspWord st d) = d := by
  cases st <;> simp only [dataField, rspWord, Status.code] <;> revert d <;> decide

/-! ### Micro-operations -/

theorem microJA_cases (s : State) :
    (s.findCard 27#5 = none ∧ microJA s = .error 27#5) ∨
    ∃ p, s.findCard 27#5 = some p ∧ microJA s = .ok { s with
      deck := swapSlots s.deck (slotOf s.anchor p) (succSlot (slotOf s.anchor p)) } := by
  unfold microJA Config.jokerA
  cases s.findCard 27#5 with
  | none => exact .inl ⟨rfl, rfl⟩
  | some p => exact .inr ⟨p, rfl, rfl⟩

theorem microJB_cases (s : State) :
    (s.findCard 28#5 = none ∧ microJB s = .error 28#5) ∨
    ∃ p, s.findCard 28#5 = some p ∧ microJB s = .ok { s with
      deck := swapSlots
        (swapSlots s.deck (slotOf s.anchor p) (succSlot (slotOf s.anchor p)))
        (succSlot (slotOf s.anchor p)) (succSlot (succSlot (slotOf s.anchor p))) } := by
  unfold microJB Config.jokerB
  cases s.findCard 28#5 with
  | none => exact .inl ⟨rfl, rfl⟩
  | some p => exact .inr ⟨p, rfl, rfl⟩

theorem microTC_cases (s : State) :
    (s.findCard 27#5 = none ∧ microTC s = .error 27#5) ∨
    (s.findCard 27#5 ≠ none ∧ s.findCard 28#5 = none ∧ microTC s = .error 28#5) ∨
    ∃ pa pb, s.findCard 27#5 = some pa ∧ s.findCard 28#5 = some pb ∧ microTC s = .ok { s with
      deck := tripleCutDeck s (min pa pb) (max pa pb)
      anchor := tripleCutAnchor s.anchor (min pa pb) (max pa pb) } := by
  unfold microTC Config.jokerA Config.jokerB
  cases s.findCard 27#5 with
  | none => exact .inl ⟨rfl, rfl⟩
  | some pa =>
    cases s.findCard 28#5 with
    | none => exact .inr (.inl ⟨nofun, rfl, rfl⟩)
    | some pb => exact .inr (.inr ⟨pa, pb, rfl, rfl, rfl⟩)

/-- JokerA changes no register but DECK (R101). -/
theorem microJA_frame {s t : State} (h : microJA s = .ok t) : t = { s with deck := t.deck } := by
  obtain ⟨_, e⟩ | ⟨p, _, e⟩ := microJA_cases s
  · rw [e] at h; nomatch h
  · rw [← Except.ok.inj (e.symm.trans h)]

/-- JokerB changes no register but DECK (R102). -/
theorem microJB_frame {s t : State} (h : microJB s = .ok t) : t = { s with deck := t.deck } := by
  obtain ⟨_, e⟩ | ⟨p, _, e⟩ := microJB_cases s
  · rw [e] at h; nomatch h
  · rw [← Except.ok.inj (e.symm.trans h)]

/-- TripleCut changes no register but DECK and ANCHOR (R105). -/
theorem microTC_frame {s t : State} (h : microTC s = .ok t) :
    t = { s with deck := t.deck, anchor := t.anchor } := by
  obtain ⟨_, e⟩ | ⟨_, _, e⟩ | ⟨pa, pb, _, _, e⟩ := microTC_cases s
  · rw [e] at h; nomatch h
  · rw [e] at h; nomatch h
  · rw [← Except.ok.inj (e.symm.trans h)]

theorem tripleCutDeck_getElem (s : State) (p1 p2 : Nat) (j : Fin 28) :
    (tripleCutDeck s p1 p2)[j] =
      if (j.val + 28 - (s.anchor.toNat + 29 - (28 - p2)) % 28) % 28 < p1 - 1 then
        s.cardAt ((j.val + 28 - (s.anchor.toNat + 29 - (28 - p2)) % 28) % 28 + 1)
      else if (j.val + 28 - (s.anchor.toNat + 29 - (28 - p2)) % 28) % 28 < p1 - 1 + (28 - p2) then
        s.cardAt (p2 + 1 +
          ((j.val + 28 - (s.anchor.toNat + 29 - (28 - p2)) % 28) % 28 - (p1 - 1)))
      else s.deck[j] := by
  simp [tripleCutDeck]

theorem countCutDeck_getElem (s : State) (j : Fin 28) :
    (countCutDeck s)[j] =
      if posOf s.anchor j = 28 then s.deck[j]
      else s.cardAt ((posOf s.anchor j - 1 + countOf (s.cardAt 28)) % 27 + 1) := by
  simp [countCutDeck]

end Sys2Proof.Machine
end

