-- ==== Sys2Proof/Laws/PerInstr.lean ====
section
/-! SUPPORT. Laws made per instruction: the encoding of every command matches its row of
opcode_table.json, as one mask and one match value over the 16-bit word. -/

namespace Sys2Proof.Laws

/-- The `mask` and `match` of a command's row in opcode_table.json. -/
def EncodingMatchesItsRow.row : Instr → CmdWord × CmdWord
  | .nop => (0xFFFF#16, 0x0000#16)
  | .srst => (0xFFFF#16, 0x0100#16)
  | .rdr _ => (0xFF00#16, 0x0200#16)
  | .load => (0xFFFF#16, 0x1000#16)
  | .card _ => (0xFF00#16, 0x1100#16)
  | .ja => (0xFFFF#16, 0x2000#16)
  | .jb => (0xFFFF#16, 0x2100#16)
  | .tc => (0xFFFF#16, 0x2200#16)
  | .cc => (0xFFFF#16, 0x2300#16)
  | .ex => (0xFFFF#16, 0x2400#16)
  | .key => (0xFFFF#16, 0x3000#16)
  | .enci _ => (0xFF00#16, 0x4000#16)
  | .deci _ => (0xFF00#16, 0x4100#16)
  | .encc _ => (0xFF00#16, 0x4200#16)
  | .decc _ => (0xFF00#16, 0x4300#16)
  | .rdp _ => (0xFF00#16, 0x5000#16)
  | .rds _ => (0xFF00#16, 0x5100#16)
  | .find _ => (0xFF00#16, 0x5200#16)

/-- The encoded word has the fixed bits of its row. -/
def EncodingMatchesItsRow.Statement (i : Instr) : Prop :=
  encode i &&& (EncodingMatchesItsRow.row i).1 = (EncodingMatchesItsRow.row i).2

theorem EncodingMatchesItsRow.nop : EncodingMatchesItsRow.Statement .nop := by
  unfold EncodingMatchesItsRow.Statement; decide

theorem EncodingMatchesItsRow.srst : EncodingMatchesItsRow.Statement .srst := by
  unfold EncodingMatchesItsRow.Statement; decide

theorem EncodingMatchesItsRow.rdr (r : Byte) : EncodingMatchesItsRow.Statement (.rdr r) := by
  unfold EncodingMatchesItsRow.Statement; revert r; decide

theorem EncodingMatchesItsRow.load : EncodingMatchesItsRow.Statement .load := by
  unfold EncodingMatchesItsRow.Statement; decide

theorem EncodingMatchesItsRow.card (v : Byte) : EncodingMatchesItsRow.Statement (.card v) := by
  unfold EncodingMatchesItsRow.Statement; revert v; decide

theorem EncodingMatchesItsRow.ja : EncodingMatchesItsRow.Statement .ja := by
  unfold EncodingMatchesItsRow.Statement; decide

theorem EncodingMatchesItsRow.jb : EncodingMatchesItsRow.Statement .jb := by
  unfold EncodingMatchesItsRow.Statement; decide

theorem EncodingMatchesItsRow.tc : EncodingMatchesItsRow.Statement .tc := by
  unfold EncodingMatchesItsRow.Statement; decide

theorem EncodingMatchesItsRow.cc : EncodingMatchesItsRow.Statement .cc := by
  unfold EncodingMatchesItsRow.Statement; decide

theorem EncodingMatchesItsRow.ex : EncodingMatchesItsRow.Statement .ex := by
  unfold EncodingMatchesItsRow.Statement; decide

theorem EncodingMatchesItsRow.key : EncodingMatchesItsRow.Statement .key := by
  unfold EncodingMatchesItsRow.Statement; decide

theorem EncodingMatchesItsRow.enci (i : Byte) : EncodingMatchesItsRow.Statement (.enci i) := by
  unfold EncodingMatchesItsRow.Statement; revert i; decide

theorem EncodingMatchesItsRow.deci (i : Byte) : EncodingMatchesItsRow.Statement (.deci i) := by
  unfold EncodingMatchesItsRow.Statement; revert i; decide

theorem EncodingMatchesItsRow.encc (c : Byte) : EncodingMatchesItsRow.Statement (.encc c) := by
  unfold EncodingMatchesItsRow.Statement; revert c; decide

theorem EncodingMatchesItsRow.decc (c : Byte) : EncodingMatchesItsRow.Statement (.decc c) := by
  unfold EncodingMatchesItsRow.Statement; revert c; decide

theorem EncodingMatchesItsRow.rdp (p : Byte) : EncodingMatchesItsRow.Statement (.rdp p) := by
  unfold EncodingMatchesItsRow.Statement; revert p; decide

theorem EncodingMatchesItsRow.rds (s : Byte) : EncodingMatchesItsRow.Statement (.rds s) := by
  unfold EncodingMatchesItsRow.Statement; revert s; decide

theorem EncodingMatchesItsRow.find (v : Byte) : EncodingMatchesItsRow.Statement (.find v) := by
  unfold EncodingMatchesItsRow.Statement; revert v; decide

end Sys2Proof.Laws
end

