-- ==== Sys2Proof/Laws/Step.lean ====
section
/-! SUPPORT. What one step can do, said once, and the frames of the micro-steps. -/

namespace Sys2Proof.Machine

/-- Every step is one of the events of R60, each under its own guards. -/
theorem step_cases (s : State) :
    (s.rst = true ∧ step s = .next s.hardReset) ∨
    (s.rst = false ∧ s.busy = true ∧ step s = .next (microStep s.passTime)) ∨
    (s.rst = false ∧ s.busy = false ∧ s.rsp ≠ none ∧ step s = .next s.serveResponse) ∨
    (s.cmdReady = true ∧ (∃ w, s.offered = some w ∧ step s = runWord w s.dropInput)) ∨
    (s.cmdReady = true ∧ s.offered = none ∧ step s = .next s.passTime) := by
  unfold step State.cmdReady
  cases s.rst <;> cases s.busy <;> cases s.rsp <;> cases s.offered <;> simp

/-- An accepted word is a command, or illegal (R163 step 1). -/
theorem runWord_cases (w : CmdWord) (s : State) :
    (∃ i, decode w = .ok i ∧ runWord w s = exec i s) ∨
    (∃ e, decode w = .error e ∧ runWord w s = .next (s.respond .errIllegal 0#8)) := by
  unfold runWord
  cases h : decode w with
  | ok i => exact .inl ⟨i, rfl, rfl⟩
  | error e => exact .inr ⟨e, rfl, rfl⟩

theorem State.offered_eq_some {s : State} {w : CmdWord} :
    s.offered = some w ↔ ∃ rest, s.inputs = .offer w :: rest := by
  unfold State.offered
  constructor
  · intro h
    split at h
    · rename_i w' r e; cases h; exact ⟨r, e⟩
    · nomatch h
  · rintro ⟨r, e⟩; rw [e]

/-! ### The frames of the micro-steps -/

/-- A micro-step of the phases JA, JB, TC and CC writes no other register than these, of which the
Corrupt fault writes the last five (R122, R128, R165). -/
theorem advance_frame (s : State) {r : Except Card State} (p : Phase)
    (h : ∀ t, r = .ok t → t = { s with deck := t.deck, anchor := t.anchor }) :
    advance s r p = { s with
      deck := (advance s r p).deck, anchor := (advance s r p).anchor,
      phase := (advance s r p).phase, fatal := (advance s r p).fatal,
      deckValid := (advance s r p).deckValid, lastErr := (advance s r p).lastErr,
      rsp := (advance s r p).rsp } := by
  cases r with
  | error v => rfl
  | ok t => simp only [advance]; rw [h t rfl]

/-- The micro-step of phase EX writes no other register than these (R123). -/
theorem extractStep_frame (s : State) :
    extractStep s = { s with
      cand := (extractStep s).cand, key := (extractStep s).key,
      keyValid := (extractStep s).keyValid, retry := (extractStep s).retry,
      phase := (extractStep s).phase, lastErr := (extractStep s).lastErr,
      rsp := (extractStep s).rsp } := by
  unfold extractStep microEX; (repeat' split) <;> rfl

/-- No micro-step writes the load registers, the latches of the loop, or the ports' inputs. -/
theorem microStep_frame (s : State) :
    (microStep s).loading = s.loading ∧ (microStep s).ldcnt = s.ldcnt ∧
    (microStep s).mode = s.mode ∧ (microStep s).form = s.form ∧ (microStep s).letter = s.letter ∧
    (microStep s).inputs = s.inputs ∧ (microStep s).resets = s.resets := by
  unfold microStep
  split
  case h_2 => rw [advance_frame s .jb fun t h => by rw [microJA_frame h]]; simp
  case h_3 => rw [advance_frame s .tc fun t h => by rw [microJB_frame h]]; simp
  case h_4 => rw [advance_frame s .cc fun t h => by rw [microTC_frame h]]; simp
  case h_5 => simp [advance]
  case h_6 => rw [extractStep_frame]; simp
  all_goals simp

theorem steps_add (m n : Nat) (s : State) :
    steps (m + n) s =
      match steps m s with
      | .next t => steps n t
      | .fault f => .fault f
      | .refused r => .refused r := by
  induction m generalizing s with
  | zero => simp [steps]
  | succ m ih =>
    rw [Nat.succ_add]
    simp only [steps]
    cases step s with
    | next t => exact ih t
    | fault f => rfl
    | refused r => rfl

/-- With no host act left, a state at rest stays as it is. -/
theorem step_rest {s : State} (hi : s.inputs = []) (hb : s.busy = false) : step s = .next s := by
  have h1 : s.rst = false := by simp [State.rst, hi]
  have h2 : s.offered = none := by simp [State.offered, hi]
  have h3 : s.passTime = s := by simp [State.passTime, hi]
  have h4 : s.serveResponse = s := by simp [State.serveResponse, State.rspReady, hi, h3]
  simp [step, h1, h2, h3, h4, hb]

theorem steps_rest {s : State} (hi : s.inputs = []) (hb : s.busy = false) (k : Nat) :
    steps k s = .next s := by
  induction k with
  | zero => rfl
  | succ k ih => simp only [steps, step_rest hi hb]; exact ih

end Sys2Proof.Machine
end

