-- ==== Sys2Proof/Tests/Slice0.lean ====
section
/-! SUPPORT. The model's own tests. Expected results come from 95_test_vectors.md (the vector's id stands
at each test) or from the rule named. After them, for every statement with hypotheses, a witness that
meets all of them together. -/

namespace Sys2Proof.Tests

open Sys2Proof Sys2Proof.Machine

set_option maxRecDepth 20000

/-! ### Helpers -/

/-- The next state of a result, if it is one. -/
def nextOf : Result → Option State
  | .next t => some t
  | .fault _ => none
  | .refused _ => none

theorem eq_next_of {r : Result} (h : (nextOf r).isSome = true) :
    r = .next ((nextOf r).getD State.reset) := by
  cases r with
  | next t => rfl
  | fault f => nomatch h
  | refused f => nomatch h

/-- A deck from its 28 values, slot 0 first. -/
def deckOf (l : List Nat) : Deck := Vector.ofFn fun i => BitVec.ofNat 5 (l.getD i.val 0)

/-- The deck `ident` of 95_test_vectors.md. -/
def ident : Deck := deckOf (List.range' 1 28)

/-- The deck `deck2` of 95_test_vectors.md. -/
def deck2 : Deck := deckOf
    [13, 10, 19, 25, 8, 12, 20, 18, 26, 1, 9, 22, 15, 3,
     17, 24, 2, 21, 23, 27, 7, 14, 5, 4, 28, 11, 16, 6]

/-- The state after a complete load, with the anchor at slot `a` (R82 for `a = 27`). -/
def loaded (d : Deck) (a : Nat) : State :=
  { State.reset with deck := d, anchor := BitVec.ofNat 5 a, deckValid := true, ldcnt := 28#5 }

/-- A load is open and the first `n` cards of `ident` have been accepted. -/
def loading (n : Nat) : State :=
  { State.reset with deck := ident, loading := true, ldcnt := BitVec.ofNat 5 n }

/-- The response word of a result. -/
def rspOf (r : Result) : Option RspWord :=
  match nextOf r with
  | some t => t.rsp
  | none => none

/-- DECK, ANCHOR and the response of a result. -/
def layoutOf (r : Result) : Option (Deck × Nat × Option RspWord) :=
  (nextOf r).map fun t => (t.deck, t.anchor.toNat, t.rsp)

/-! ### Well-formedness: one ill-formed term for each range of R64 -/

theorem test_wf_refuses_rdr_6 : (Instr.rdr 6#8).WellFormed = false := by decide
theorem test_wf_refuses_card_0 : (Instr.card 0#8).WellFormed = false := by decide
theorem test_wf_refuses_card_29 : (Instr.card 29#8).WellFormed = false := by decide
theorem test_wf_refuses_enci_27 : (Instr.enci 27#8).WellFormed = false := by decide
theorem test_wf_refuses_deci_0 : (Instr.deci 0#8).WellFormed = false := by decide
theorem test_wf_refuses_decc_lower : (Instr.decc 0x70#8).WellFormed = false := by decide
theorem test_wf_refuses_rdp_29 : (Instr.rdp 29#8).WellFormed = false := by decide
theorem test_wf_refuses_rds_28 : (Instr.rds 28#8).WellFormed = false := by decide
theorem test_wf_refuses_find_0 : (Instr.find 0#8).WellFormed = false := by decide
theorem test_wf_accepts_encc_comma : (Instr.encc 0x2C#8).WellFormed = true := by decide

/-! ### Decoding: the words of 95_test_vectors.md section 2, bit by bit -/

theorem test_decode_nop : decodeTableWord 16 0b0000000000000000 = some (.nop) := by decide
theorem test_decode_srst : decodeTableWord 16 0b0000000100000000 = some (.srst) := by decide
theorem test_decode_rdr_5 : decodeTableWord 16 0b0000001000000101 = some (.rdr 5#8) := by decide
theorem test_decode_load : decodeTableWord 16 0b0001000000000000 = some (.load) := by decide
theorem test_decode_card_13 : decodeTableWord 16 0b0001000100001101 = some (.card 13#8) := by decide
theorem test_decode_ja : decodeTableWord 16 0b0010000000000000 = some (.ja) := by decide
theorem test_decode_jb : decodeTableWord 16 0b0010000100000000 = some (.jb) := by decide
theorem test_decode_tc : decodeTableWord 16 0b0010001000000000 = some (.tc) := by decide
theorem test_decode_cc : decodeTableWord 16 0b0010001100000000 = some (.cc) := by decide
theorem test_decode_ex : decodeTableWord 16 0b0010010000000000 = some (.ex) := by decide
theorem test_decode_key : decodeTableWord 16 0b0011000000000000 = some (.key) := by decide
theorem test_decode_enci_8 : decodeTableWord 16 0b0100000000001000 = some (.enci 8#8) := by decide
theorem test_decode_deci_16 : decodeTableWord 16 0b0100000100010000 = some (.deci 16#8) := by decide
theorem test_decode_encc_H : decodeTableWord 16 0b0100001001001000 = some (.encc 0x48#8) := by decide
theorem test_decode_decc_P : decodeTableWord 16 0b0100001101010000 = some (.decc 0x50#8) := by decide
theorem test_decode_rdp_28 : decodeTableWord 16 0b0101000000011100 = some (.rdp 28#8) := by decide
theorem test_decode_rds_27 : decodeTableWord 16 0b0101000100011011 = some (.rds 27#8) := by decide
theorem test_decode_find_27 : decodeTableWord 16 0b0101001000011011 = some (.find 27#8) := by decide

/-- The illegal words of section 2 (R65). -/
theorem test_decode_illegal : [0x0300, 0xFF00, 0x1200, 0x3100, 0x0001, 0x3001, 0x10FF].all
    (fun w => decodeTableWord 16 w == none) = true := by decide

/-! ### System commands -/

/-- SY-1. -/
theorem test_nop : rspOf (exec .nop State.reset) = some 0x0000#16 := by decide
/-- SY-1. -/
theorem test_rdr_anchor : rspOf (exec (.rdr 1#8) State.reset) = some 0x001B#16 := by decide
/-- SY-1. -/
theorem test_rdr_6 : (nextOf (exec (.rdr 6#8) State.reset)).map (fun t => (t.rsp, t.lastErr)) =
    some (some 0x9000#16, 9#4) := by decide
/-- R151: the FAULT state with STATUS 0x8E. -/
theorem test_srst : (nextOf (exec .srst { State.reset with
    fatal := true, phase := .fault, lastErr := 0xE#4 })).map (fun t => (t.rsp, t.statusByte, t.phase)) =
    some (some 0x0000#16, 0#8, .idle) := by decide

/-! ### Deck load -/

/-- LD-1. -/
theorem test_load : (nextOf (exec .load State.reset)).map (fun t => (t.rsp, t.statusByte)) =
    some (some 0x0000#16, 0x40#8) := by decide
/-- LD-10. -/
theorem test_load_inside_load : (nextOf (exec .load (loading 1))).map
    (fun t => (t.rsp, t.loading)) = some (some 0xD001#16, false) := by decide
/-- LD-2: the 28th card. -/
theorem test_card_28th : (nextOf (exec (.card 28#8) (loading 27))).map
    (fun t => (t.rsp, t.statusByte, t.anchor)) = some (some 0x001C#16, 0x20#8, 27#5) := by decide
/-- LD-14: the 28th card is a duplicate. -/
theorem test_card_duplicate : (nextOf (exec (.card 27#8) (loading 27))).map
    (fun t => (t.rsp, t.statusByte)) = some (some 0xC01B#16, 0x0C#8) := by decide

/-! ### Deck access: AC-3, AC-5, AC-7, AC-8, AC-9, AC-13 -/

theorem test_rdp_20 : rspOf (exec (.rdp 20#8) (loaded deck2 27)) = some 0x001B#16 := by decide
theorem test_rdp_29 : rspOf (exec (.rdp 29#8) (loaded deck2 27)) = some 0x9000#16 := by decide
theorem test_rds_27 : rspOf (exec (.rds 27#8) (loaded deck2 27)) = some 0x0006#16 := by decide
theorem test_rds_28 : rspOf (exec (.rds 28#8) (loaded deck2 27)) = some 0x9000#16 := by decide
theorem test_find_27 : rspOf (exec (.find 27#8) (loaded deck2 27)) = some 0x0014#16 := by decide
theorem test_find_0 : rspOf (exec (.find 0#8) (loaded deck2 27)) = some 0x9000#16 := by decide

/-! ### Transform steps -/

/-- JA-1. -/
theorem test_ja_1 : layoutOf (exec .ja (loaded (deckOf
    [1, 2, 3, 4, 5, 6, 7, 8, 9, 10, 11, 12, 13, 28,
     14, 15, 16, 17, 18, 19, 20, 21, 22, 23, 24, 25, 26, 27]) 27)) = some (deckOf
    [27, 2, 3, 4, 5, 6, 7, 8, 9, 10, 11, 12, 13, 28,
     14, 15, 16, 17, 18, 19, 20, 21, 22, 23, 24, 25, 26, 1], 27, some 0x0000#16) := by decide

/-- JA-3. -/
theorem test_ja_3 : layoutOf (exec .ja (loaded (deckOf
    [22, 23, 24, 25, 26, 28, 27, 1, 2, 3, 4, 5, 6, 7,
     8, 9, 10, 11, 12, 13, 14, 15, 16, 17, 18, 19, 20, 21]) 5)) = some (deckOf
    [22, 23, 24, 25, 26, 28, 1, 27, 2, 3, 4, 5, 6, 7,
     8, 9, 10, 11, 12, 13, 14, 15, 16, 17, 18, 19, 20, 21], 5, some 0x0000#16) := by decide

/-- JB-2. -/
theorem test_jb_2 : layoutOf (exec .jb (loaded (deckOf
    [1, 2, 3, 4, 5, 6, 7, 8, 9, 10, 11, 12, 13, 14,
     15, 16, 17, 18, 19, 20, 21, 22, 23, 24, 25, 27, 28, 26]) 27)) = some (deckOf
    [28, 2, 3, 4, 5, 6, 7, 8, 9, 10, 11, 12, 13, 14,
     15, 16, 17, 18, 19, 20, 21, 22, 23, 24, 25, 27, 26, 1], 27, some 0x0000#16) := by decide

/-- JB-3. -/
theorem test_jb_3 : layoutOf (exec .jb (loaded (deckOf
    [1, 2, 3, 4, 5, 6, 7, 8, 9, 10, 28, 27, 11, 12,
     13, 14, 15, 16, 17, 18, 19, 20, 21, 22, 23, 24, 25, 26]) 27)) = some (deckOf
    [1, 2, 3, 4, 5, 6, 7, 8, 9, 10, 27, 11, 28, 12,
     13, 14, 15, 16, 17, 18, 19, 20, 21, 22, 23, 24, 25, 26], 27, some 0x0000#16) := by decide

/-- TC-6. -/
theorem test_tc_6 : layoutOf (exec .tc (loaded (deckOf
    [18, 19, 20, 27, 21, 22, 23, 24, 25, 26, 1, 2, 3, 28,
     4, 5, 6, 7, 8, 9, 10, 11, 12, 13, 14, 15, 16, 17]) 9)) = some (deckOf
    [18, 19, 20, 27, 1, 2, 3, 21, 22, 23, 24, 25, 26, 28,
     4, 5, 6, 7, 8, 9, 10, 11, 12, 13, 14, 15, 16, 17], 6, some 0x0000#16) := by decide

/-- CC-4. -/
theorem test_cc_4 : layoutOf (exec .cc (loaded (deckOf
    [27, 1, 2, 3, 4, 5, 6, 7, 8, 9, 10, 11, 12, 13,
     14, 15, 16, 17, 18, 19, 20, 21, 22, 23, 24, 25, 28, 26]) 27)) = some (deckOf
    [28, 27, 1, 2, 3, 4, 5, 6, 7, 8, 9, 10, 11, 12,
     13, 14, 15, 16, 17, 18, 19, 20, 21, 22, 23, 24, 25, 26], 27, some 0x0000#16) := by decide

/-- CC-5. -/
theorem test_cc_5 : layoutOf (exec .cc (loaded (deckOf
    [24, 25, 26, 10, 1, 2, 3, 4, 5, 6, 7, 8, 9, 11,
     12, 13, 27, 28, 14, 15, 16, 17, 18, 19, 20, 21, 22, 23]) 3)) = some (deckOf
    [8, 9, 11, 10, 12, 13, 27, 28, 14, 15, 16, 17, 18, 19,
     20, 21, 22, 23, 24, 25, 26, 1, 2, 3, 4, 5, 6, 7], 3, some 0x0000#16) := by decide

/-- SY-7: both jokers missing, 27 is reported. -/
theorem test_tc_corrupt : (nextOf (exec .tc (loaded ((ident.set 26 6#5).set 27 5#5) 27))).map
    (fun t => (t.rsp, t.statusByte, t.phase)) = some (some 0xE01B#16, 0x8E#8, .fault) := by decide
/-- EX-1. -/
theorem test_ex_accept : rspOf (exec .ex (loaded (deckOf
    [1, 9, 2, 3, 4, 5, 6, 7, 8, 10, 11, 12, 13, 14,
     15, 16, 17, 18, 19, 20, 21, 22, 23, 24, 25, 26, 27, 28]) 27)) = some 0x0009#16 := by decide
/-- EX-4. -/
theorem test_ex_sentinel : (nextOf (exec .ex (loaded (deckOf
    [26, 1, 2, 3, 4, 5, 6, 7, 8, 9, 10, 11, 12, 13,
     14, 15, 16, 17, 18, 19, 20, 21, 22, 23, 24, 25, 27, 28]) 27))).map
    (fun t => (t.rsp, t.cand, t.keyValid)) = some (some 0x201B#16, 27#5, false) := by decide

/-! ### The key loop and the letter mapper -/

/-- R126: the entry; 95_test_vectors.md section 5. -/
theorem test_key_entry : (nextOf (exec .key (loaded ident 27))).map
    (fun t => (t.phase, t.rsp, t.keyValid)) = some (.ja, none, false) := by decide
/-- EX-5 in the loop: the joker candidate is discarded (R123). -/
theorem test_ex_phase_retry : (nextOf (step { loaded (deckOf
    [3, 1, 2, 27, 4, 5, 6, 7, 8, 9, 10, 11, 12, 13,
     14, 15, 16, 17, 18, 19, 20, 21, 22, 23, 24, 25, 28, 26]) 27 with phase := .ex })).map
    (fun t => (t.phase, t.cand, t.retry, t.rsp)) = some (.ja, 27#5, 1#8, none) := by decide
/-- M-19 with the key 8 of section 5, step 10. -/
theorem test_ex_phase_encodes : rspOf (step { loaded (deckOf
    [2, 3, 28, 4, 5, 6, 7, 8, 9, 10, 11, 12, 13, 14,
     15, 16, 17, 18, 19, 20, 21, 22, 23, 24, 25, 26, 1, 27]) 2 with
    phase := .ex, mode := .enc, letter := 8#5 }) = some 0x0010#16 := by decide
/-- M-25: the same key, DECC 'A'. -/
theorem test_ex_phase_decodes_char : rspOf (step { loaded (deckOf
    [2, 3, 28, 4, 5, 6, 7, 8, 9, 10, 11, 12, 13, 14,
     15, 16, 17, 18, 19, 20, 21, 22, 23, 24, 25, 26, 1, 27]) 2 with
    phase := .ex, mode := .dec, form := .character, letter := 1#5 }) = some 0x0053#16 := by decide
/-- R133: 'h' latches the index 8. -/
theorem test_encc_lower : (nextOf (exec (.encc 0x68#8) (loaded ident 27))).map
    (fun t => (t.mode, t.form, t.letter)) = some (.enc, .character, 8#5) := by decide
/-- M-30. -/
theorem test_encc_dropped : rspOf (exec (.encc 0x60#8) (loaded ident 27)) = some 0x1000#16 := by
  decide
/-- M-35. -/
theorem test_decc_lower : rspOf (exec (.decc 0x70#8) (loaded ident 27)) = some 0x9000#16 := by
  decide
/-- M-38. -/
theorem test_enci_27 : rspOf (exec (.enci 27#8) (loaded ident 27)) = some 0x9000#16 := by decide
/-- R135. -/
theorem test_deci_1 : (nextOf (exec (.deci 1#8) (loaded ident 27))).map
    (fun t => (t.mode, t.form, t.letter)) = some (.dec, .index, 1#5) := by decide
/-- M-3, M-7, M-8. -/
theorem test_enc : [encShift 26#5 1#5, encShift 13#5 13#5, encShift 14#5 13#5] =
    [1#5, 26#5, 1#5] := by decide
/-- M-11, M-13, M-14. -/
theorem test_dec : [decShift 1#5 1#5, decShift 1#5 2#5, decShift 1#5 26#5] =
    [26#5, 25#5, 1#5] := by decide

/-! ### The step around a command -/

/-- The first step after reset runs the placed word; here `KEY` without a deck (SY-2). -/
theorem test_step_first : rspOf (step (State.reset.withFetchWord 16 0x3000)) = some 0xA000#16 := by
  decide
/-- An illegal word during a load does not abort it (LD-12). -/
theorem test_step_illegal : (nextOf (step ((loading 1).withFetchWord 16 0x0300))).map
    (fun t => (t.rsp, t.loading, t.lastErr)) = some (some 0x8000#16, true, 8#4) := by decide


/-! ### Witnesses: states and operands that meet the hypotheses of each statement -/

/-- `deck2` loaded, LDCNT and ANCHOR as after the load: the machine's invariant holds. -/
theorem deck2_inv : (loaded deck2 27).Inv where
  anchor_lt := by decide
  ldcnt_le := by decide
  loading_lt := by decide
  fatal_iff := by decide
  valid_not_loading := by decide
  fatal_not_loading := by decide
  fatal_not_valid := by decide
  busy_loop := by decide
  lastErr_legal := by decide
  rsp_format := by intro w h; nomatch h
  letter_legal := by decide
  not_fatal := by decide
  deck_complete := by unfold DeckComplete; decide
  deck_count := by decide
  load_distinct := by intro h; nomatch h
  key_le := by decide
  cand_le := by decide
  key_valid := by decide

theorem deck2_complete : DeckComplete deck2 := deck2_inv.deck_complete rfl

theorem deck2_open : (loaded deck2 27).GatesOpen := ⟨rfl, rfl, rfl⟩

theorem deck2_ready : (loaded deck2 27).Ready := ⟨rfl, rfl, rfl⟩

/-- A key loop on `deck2` in the phase JA. -/
def running (m : Mode) (f : Form) (l : Nat) : State :=
  { loaded deck2 27 with phase := .ja, mode := m, form := f, letter := BitVec.ofNat 5 l }

theorem running_inv : (running .enc .character 8).Inv where
  anchor_lt := by decide
  ldcnt_le := by decide
  loading_lt := by decide
  fatal_iff := by decide
  valid_not_loading := by decide
  fatal_not_loading := by decide
  fatal_not_valid := by decide
  busy_loop := by decide
  lastErr_legal := by decide
  rsp_format := by intro w h; nomatch h
  letter_legal := by decide
  not_fatal := by decide
  deck_complete := by unfold DeckComplete; decide
  deck_count := by decide
  load_distinct := by intro h; nomatch h
  key_le := by decide
  cand_le := by decide
  key_valid := by decide

/-- A corrupted deck: `ident` without 27 and 28. -/
def jokerless : State := loaded ((ident.set 26 6#5).set 27 5#5) 27

theorem witness_ReservedWordsAreIllegalInEveryState : ∃ (s : State) (w : CmdWord) (e : DecodeError)
    (rest : List PortEvent), s.inputs = .offer w :: rest ∧ s.cmdReady = true ∧
      decode w = .error e ∧ s.loading = true :=
  ⟨{ loading 1 with inputs := [.offer 0x0001#16] }, 0x0001#16, .reservedOperand 0#8 1#8, [],
    rfl, by decide, rfl, rfl⟩

theorem witness_StepExecutesTheAcceptedCommand : ∃ (s : State) (w : CmdWord) (i : Instr)
    (rest : List PortEvent), s.inputs = .offer w :: rest ∧ s.cmdReady = true ∧ decode w = .ok i :=
  ⟨{ loaded deck2 27 with inputs := [.offer 0x501C#16, .take] }, 0x501C#16, .rdp 28#8, [.take],
    rfl, by decide, rfl⟩

theorem witness_OfferWaitsWhileEngineIsNotReady_busy : ∃ (s : State) (w : CmdWord)
    (rest : List PortEvent), s.inputs = .offer w :: rest ∧ s.busy = true :=
  ⟨{ running .enc .index 8 with inputs := [.offer 0x3000#16] }, 0x3000#16, [], rfl, by decide⟩

theorem witness_OfferWaitsWhileEngineIsNotReady_response : ∃ (s : State) (w : CmdWord)
    (rest : List PortEvent), s.inputs = .offer w :: rest ∧ s.busy = false ∧ s.rsp ≠ none :=
  ⟨{ loaded deck2 27 with inputs := [.offer 0x3000#16], rsp := some 0x0000#16 }, 0x3000#16, [], rfl,
    by decide, by decide⟩

theorem witness_ResponseIsHeldUntilTaken_taken : ∃ (s : State) (w : RspWord)
    (rest : List PortEvent), s.rsp = some w ∧ s.busy = false ∧ s.rst = false ∧
      s.inputs = .take :: rest :=
  ⟨{ State.reset with rsp := some 0x0008#16, inputs := [.take, .offer 0#16] }, 8#16,
    [.offer 0#16], rfl, by decide, by decide, rfl⟩

theorem witness_ResponseIsHeldUntilTaken_held : ∃ (s : State) (w : RspWord), s.rsp = some w ∧
    s.busy = false ∧ s.rst = false ∧ s.rspReady = false :=
  ⟨{ State.reset with rsp := some 0x0008#16, inputs := [.wait, .take] }, 8#16, rfl, by decide,
    by decide, by decide⟩

theorem witness_ResetWinsInEveryState : ∃ s : State, s.rst = true ∧ s.phase = .tc :=
  ⟨{ running .enc .index 8 with phase := .tc, inputs := [.rst, .offer 0#16] }, by decide, rfl⟩

theorem witness_GatesRefuseInTheirOrder_fatal : ∃ (i : Instr) (s : State), i ≠ .nop ∧ i ≠ .srst ∧
    (∀ r, i ≠ .rdr r) ∧ s.fatal = true :=
  ⟨.rdp 99#8, { State.reset with fatal := true, phase := .fault }, nofun, nofun, nofun, rfl⟩

theorem witness_GatesRefuseInTheirOrder_loading : ∃ (i : Instr) (s : State), i ≠ .nop ∧
    i ≠ .srst ∧ (∀ r, i ≠ .rdr r) ∧ (∀ v, i ≠ .card v) ∧ s.fatal = false ∧ s.loading = true :=
  ⟨.load, loading 27, nofun, nofun, nofun, nofun, rfl, rfl⟩

theorem witness_GatesRefuseInTheirOrder_deck : ∃ (i : Instr) (s : State), i ≠ .nop ∧ i ≠ .srst ∧
    (∀ r, i ≠ .rdr r) ∧ (∀ v, i ≠ .card v) ∧ i ≠ .load ∧ s.fatal = false ∧ s.loading = false ∧
    s.deckValid = false :=
  ⟨.encc 0x2C#8, State.reset, nofun, nofun, nofun, nofun, nofun, rfl, rfl, rfl⟩

/-- One operand at a boundary of each clause. -/
theorem witness_OperandCheckRefusesBeforeAnyEffect : (loaded deck2 27).GatesOpen ∧
    26 < (27#8 : Byte).toNat ∧ 28 < (29#8 : Byte).toNat ∧ 27 < (28#8 : Byte).toNat ∧
    (0x40#8 : Byte).toNat < 0x41 ∧ 0x5A < (0x60#8 : Byte).toNat ∧ (0x60#8 : Byte).toNat < 0x61 ∧
    0x7A < (0x7B#8 : Byte).toNat := ⟨deck2_open, by decide⟩

theorem witness_LoadOpensALoad : ∃ s : State, s.fatal = false ∧ s.loading = false ∧
    s.deckValid = true := ⟨loaded deck2 27, rfl, rfl, rfl⟩

theorem witness_CardFillsTheNextSlot_last : ∃ (v : Byte) (s : State), s.ldcnt.toNat < 28 ∧
    s.fatal = false ∧ s.loading = true ∧ 1 ≤ v.toNat ∧ v.toNat ≤ 28 ∧ s.ldcnt.toNat = 27 ∧
    ∀ j : Fin 28, j.val < s.ldcnt.toNat → s.deck[j].toNat ≠ v.toNat :=
  ⟨28#8, loading 27, by decide, rfl, rfl, by decide, by decide, by decide, by decide⟩

theorem witness_CardFillsTheNextSlot_first : ∃ (v : Byte) (s : State), s.ldcnt.toNat < 28 ∧
    s.fatal = false ∧ s.loading = true ∧ 1 ≤ v.toNat ∧ v.toNat ≤ 28 ∧ s.ldcnt.toNat = 0 ∧
    ∀ j : Fin 28, j.val < s.ldcnt.toNat → s.deck[j].toNat ≠ v.toNat :=
  ⟨1#8, loading 0, by decide, rfl, rfl, by decide, by decide, by decide, by decide⟩

theorem witness_CardConfigurationErrorsCloseTheLoad_length : (loaded deck2 27).fatal = false ∧
    (loaded deck2 27).loading = false := ⟨rfl, rfl⟩

theorem witness_CardConfigurationErrorsCloseTheLoad_range : (loading 27).fatal = false ∧
    (loading 27).loading = true ∧ (0#8 : Byte).toNat < 1 ∧ 28 < (29#8 : Byte).toNat :=
  ⟨rfl, rfl, by decide, by decide⟩

theorem witness_CardConfigurationErrorsCloseTheLoad_duplicate : ∃ (v : Byte) (s : State),
    s.fatal = false ∧ s.loading = true ∧ 1 ≤ v.toNat ∧ v.toNat ≤ 28 ∧
    ∃ j : Fin 28, j.val < s.ldcnt.toNat ∧ s.deck[j].toNat = v.toNat :=
  ⟨27#8, loading 27, rfl, rfl, by decide, by decide, 26, by decide, by decide⟩

theorem witness_CompleteLoadEstablishesTheSuppliedDeck : ∃ (s : State) (vs : List Byte),
    s.fatal = false ∧ s.loading = false ∧ s.busy = false ∧
    (vs.map BitVec.toNat).Perm (List.range' 1 28) :=
  ⟨loaded ident 3, deck2.toList.map (BitVec.setWidth 8), rfl, rfl, by decide, by decide⟩

theorem witness_OnlyThe28thCardMakesADeckValid : ∃ s t : State, step s = .next t ∧
    s.deckValid = false ∧ t.deckValid = true :=
  ⟨{ loading 27 with inputs := [.offer 0x111C#16] }, _, eq_next_of (by decide), rfl, by decide⟩

theorem witness_PositionsAndSlotsTranslateBothWays : (loaded deck2 27).anchor.toNat < 28 ∧
    (loaded deck2 0).anchor.toNat < 28 := by decide

theorem witness_FindIsTheLeastPosition : DeckComplete (loaded deck2 27).deck ∧
    1 ≤ (28#5 : Card).toNat ∧ (28#5 : Card).toNat ≤ 28 := ⟨deck2_complete, by decide, by decide⟩

theorem witness_RdpReturnsTheCardAtAPosition : (loaded deck2 5).GatesOpen ∧
    1 ≤ (28#8 : Byte).toNat ∧ (28#8 : Byte).toNat ≤ 28 := ⟨⟨rfl, rfl, rfl⟩, by decide, by decide⟩

theorem witness_RdsReturnsTheCardInASlot : (loaded deck2 5).GatesOpen ∧
    (27#8 : Byte).toNat < 28 := ⟨⟨rfl, rfl, rfl⟩, by decide⟩

theorem witness_FindReturnsTheFirstPosition_present : ∃ (v : Byte) (s : State) (p : Nat),
    s.GatesOpen ∧ 1 ≤ v.toNat ∧ v.toNat ≤ 28 ∧ 1 ≤ p ∧ p ≤ 28 ∧ (s.cardAt p).toNat = v.toNat ∧
    ∀ q, 1 ≤ q → q < p → (s.cardAt q).toNat ≠ v.toNat :=
  ⟨10#8, loaded deck2 27, 2, deck2_open, by decide, by decide, by decide, by decide, by decide,
    fun q a b => by obtain rfl : q = 1 := by omega
                    decide⟩

theorem witness_FindReturnsTheFirstPosition_absent : ∃ (v : Byte) (s : State), s.GatesOpen ∧
    1 ≤ v.toNat ∧ v.toNat ≤ 28 ∧ ∀ p, 1 ≤ p → p ≤ 28 → (s.cardAt p).toNat ≠ v.toNat :=
  ⟨28#8, jokerless, ⟨rfl, rfl, rfl⟩, by decide, by decide, fun p a b => by
    have h : ∀ q : Fin 29, (jokerless.cardAt q.val).toNat ≠ 28 := by decide
    exact h ⟨p, by omega⟩⟩

theorem witness_JokerAMovesOnePositionForward : (loaded deck2 27).GatesOpen ∧
    (loaded deck2 27).findCard 27#5 = some 20 ∧ jokerless.GatesOpen ∧
    jokerless.findCard 27#5 = none := ⟨deck2_open, by decide, ⟨rfl, rfl, rfl⟩, by decide⟩

theorem witness_JokerBMovesTwoPositionsForward : (loaded ident 27).GatesOpen ∧
    (loaded ident 27).findCard 28#5 = some 28 ∧ jokerless.GatesOpen ∧
    jokerless.findCard 28#5 = none := ⟨⟨rfl, rfl, rfl⟩, by decide, ⟨rfl, rfl, rfl⟩, by decide⟩

theorem witness_TripleCutSwapsTheOuterSegments : (loaded deck2 27).GatesOpen ∧
    (loaded deck2 27).findCard 27#5 = some 20 ∧ (loaded deck2 27).findCard 28#5 = some 25 :=
  ⟨deck2_open, by decide, by decide⟩

theorem witness_TripleCutSwapsTheOuterSegments_corrupt : (loaded (ident.set 27 5#5) 27).GatesOpen ∧
    (loaded (ident.set 27 5#5) 27).findCard 27#5 ≠ none ∧
    (loaded (ident.set 27 5#5) 27).findCard 28#5 = none ∧ jokerless.findCard 27#5 = none :=
  ⟨⟨rfl, rfl, rfl⟩, by decide, by decide, by decide⟩

theorem witness_CountCutRotatesAllButTheAnchor : (loaded deck2 27).GatesOpen := deck2_open

theorem witness_ExtractionReportsTheCandidate : (loaded deck2 27).GatesOpen ∧
    ((loaded deck2 27).cardAt (min ((loaded deck2 27).cardAt 1).toNat 27 + 1)).toNat < 27 ∧
    (loaded ident 26).GatesOpen ∧
    27 ≤ ((loaded ident 26).cardAt (min ((loaded ident 26).cardAt 1).toNat 27 + 1)).toNat :=
  ⟨deck2_open, by decide, ⟨rfl, rfl, rfl⟩, by decide⟩

theorem witness_FourStepsKeepACompleteDeck : DeckComplete (loaded deck2 27).deck := deck2_complete

/-- The value of a micro-operation, if it did not raise Corrupt. -/
def okOf (r : Except Card State) : Option State :=
  match r with
  | .ok t => some t
  | .error _ => none

theorem eq_ok_of {r : Except Card State} (h : (okOf r).isSome = true) :
    r = .ok ((okOf r).getD State.reset) := by
  cases r with
  | ok t => rfl
  | error v => nomatch h

theorem witness_EachStepIsUndoneOnLinearViews_JA : ∃ s s' t t' : State, DeckComplete s.deck ∧
    DeckComplete s'.deck ∧ microJA s = .ok t ∧ microJA s' = .ok t' ∧ t.linear = t'.linear :=
  ⟨loaded deck2 27, loaded deck2 27, _, _, deck2_complete, deck2_complete, eq_ok_of (by decide),
    eq_ok_of (by decide), rfl⟩

theorem witness_EachStepIsUndoneOnLinearViews_JB : ∃ s s' t t' : State, DeckComplete s.deck ∧
    DeckComplete s'.deck ∧ microJB s = .ok t ∧ microJB s' = .ok t' ∧ t.linear = t'.linear :=
  ⟨loaded deck2 27, loaded deck2 27, _, _, deck2_complete, deck2_complete, eq_ok_of (by decide),
    eq_ok_of (by decide), rfl⟩

theorem witness_EachStepIsUndoneOnLinearViews_TC : ∃ s s' t t' u : State, DeckComplete s.deck ∧
    DeckComplete s'.deck ∧ microTC s = .ok t ∧ microTC s' = .ok t' ∧ t.linear = t'.linear ∧
    microTC t = .ok u :=
  ⟨loaded deck2 27, loaded deck2 27, _, _, _, deck2_complete, deck2_complete,
    eq_ok_of (by decide), eq_ok_of (by decide), rfl, eq_ok_of (by decide)⟩

theorem witness_EachStepIsUndoneOnLinearViews_CC : ∃ s s' : State, DeckComplete s.deck ∧
    DeckComplete s'.deck ∧ (microCC s).linear = (microCC s').linear :=
  ⟨loaded deck2 27, loaded deck2 27, deck2_complete, deck2_complete, rfl⟩

theorem witness_LoopCommandsEnterTheKeyLoop : (loaded deck2 27).GatesOpen ∧
    1 ≤ (26#8 : Byte).toNat ∧ (26#8 : Byte).toNat ≤ 26 ∧ 0x41 ≤ (0x5A#8 : Byte).toNat ∧
    (0x5A#8 : Byte).toNat ≤ 0x5A ∧ 0x61 ≤ (0x61#8 : Byte).toNat ∧ (0x61#8 : Byte).toNat ≤ 0x7A :=
  ⟨deck2_open, by decide⟩

theorem witness_TransformPhasesAdvanceInOrder_JA : ∃ s t : State, s.rst = false ∧ s.phase = .ja ∧
    microJA s.passTime = .ok t :=
  ⟨running .enc .index 8, _, by decide, rfl, eq_ok_of (by decide)⟩

theorem witness_TransformPhasesAdvanceInOrder_JB : ∃ s t : State, s.rst = false ∧ s.phase = .jb ∧
    microJB s.passTime = .ok t :=
  ⟨{ running .enc .index 8 with phase := .jb, inputs := [.wait] }, _, by decide, rfl,
    eq_ok_of (by decide)⟩

theorem witness_TransformPhasesAdvanceInOrder_TC : ∃ s t : State, s.rst = false ∧ s.phase = .tc ∧
    microTC s.passTime = .ok t :=
  ⟨{ running .enc .index 8 with phase := .tc }, _, by decide, rfl, eq_ok_of (by decide)⟩

theorem witness_TransformPhasesAdvanceInOrder_CC : ∃ s : State, s.rst = false ∧ s.phase = .cc :=
  ⟨{ running .enc .index 8 with phase := .cc, inputs := [.take] }, by decide, rfl⟩

theorem witness_CorruptEndsTheLoopAtOnce : ∃ s s' s'' : State,
    s.rst = false ∧ s.phase = .ja ∧ s.findCard 27#5 = none ∧
    s'.rst = false ∧ s'.phase = .jb ∧ s'.findCard 28#5 = none ∧
    s''.rst = false ∧ s''.phase = .tc ∧ s''.findCard 27#5 ≠ none ∧ s''.findCard 28#5 = none :=
  ⟨{ jokerless with phase := .ja }, { jokerless with phase := .jb },
    { loaded (ident.set 27 5#5) 27 with phase := .tc }, by decide, rfl, by decide, by decide, rfl,
    by decide, by decide, rfl, by decide, by decide⟩

theorem witness_ExtractionRetriesOrCompletes : ∃ s s' : State,
    s.rst = false ∧ s.phase = .ex ∧ 27 ≤ (s.cardAt (min (s.cardAt 1).toNat 27 + 1)).toNat ∧
    s'.rst = false ∧ s'.phase = .ex ∧ (s'.cardAt (min (s'.cardAt 1).toNat 27 + 1)).toNat < 27 :=
  ⟨{ loaded ident 26 with phase := .ex, retry := 255#8 }, { loaded deck2 27 with phase := .ex },
    by decide, rfl, by decide, by decide, rfl, by decide⟩

/-- The loop on `deck2` ends: both sides of the equivalence hold of its end. -/
theorem witness_MicroStepsRefineTheBigStepLoop : ∃ s t : State, s.phase = .ja ∧ s.inputs = [] ∧
    ∃ k, steps k s = .next t ∧ t.busy = false :=
  ⟨running .enc .character 8, _, rfl, rfl, 5, eq_next_of (by decide), by decide⟩

theorem witness_EndlessLoopStaysBusyForEver : ∃ s : State, s.phase = .ja ∧ s.inputs = [] ∧
    s.rsp = none := ⟨running .keyonly .index 0, rfl, rfl, rfl⟩

/-- `ident` discards one candidate (95_test_vectors.md section 5): `n = 1` in both clauses. -/
theorem witness_RetryCountsTheDiscardedCandidates : ∃ s t u : State, s.phase = .ja ∧
    s.inputs = [] ∧ s.retry = 0#8 ∧ steps (5 * 1) s = .next u ∧ u.busy = true ∧
    steps (5 * (1 + 1)) s = .next t ∧ t.phase = .idle :=
  ⟨{ loaded ident 27 with phase := .ja }, _, _, rfl, rfl, rfl, eq_next_of (by decide), by decide,
    eq_next_of (by decide), by decide⟩

theorem witness_CompletedLoopDeliversALegalKey : ∃ (k : Nat) (s t : State), s.Inv ∧
    s.busy = true ∧ s.inputs = [] ∧ steps k s = .next t ∧ t.busy = false :=
  ⟨5, running .enc .character 8, _, running_inv, by decide, rfl, eq_next_of (by decide),
    by decide⟩

theorem witness_KeyStreamDependsOnTheDeckAlone : ∃ (k : Nat) (s s' t t' : State),
    s.phase = .ja ∧ s'.phase = .ja ∧ s.inputs = [] ∧ s'.inputs = [] ∧ s.linear = s'.linear ∧
    steps k s = .next t ∧ steps k s' = .next t' ∧ t.phase = .idle ∧ s.mode ≠ s'.mode :=
  ⟨5, running .enc .character 8, running .keyonly .index 0, _, _, rfl, rfl, rfl, rfl, by decide,
    eq_next_of (by decide), eq_next_of (by decide), by decide, by decide⟩

theorem some_of {α : Type} {o : Option α} (h : o.isSome = true) : ∃ a, o = some a :=
  Option.isSome_iff_exists.mp h

theorem witness_SingleStepsReproduceOneKey : ∃ (k : Nat) (s u : State) (w : RspWord), s.Ready ∧
    s.GatesOpen ∧ issue k .key s = some (w, u) ∧ u.fatal = false ∧ u.retry.toNat < 255 := by
  have h : ((issue 6 .key (loaded deck2 27)).map
      fun p => (p.2.fatal, p.2.retry)) = some (false, 0#8) := by decide
  cases e : issue 6 .key (loaded deck2 27) with
  | none => rw [e] at h; nomatch h
  | some p =>
    rw [e] at h
    simp only [Option.map_some, Option.some.injEq, Prod.mk.injEq] at h
    exact ⟨6, loaded deck2 27, p.2, p.1, deck2_ready, deck2_open, e, h.1, by rw [h.2]; decide⟩

theorem witness_EncIsTheEncryptionShift : 1 ≤ (26#5 : Card).toNat ∧ (26#5 : Card).toNat ≤ 26 ∧
    1 ≤ (1#5 : Card).toNat ∧ (1#5 : Card).toNat ≤ 26 := by decide

theorem witness_DecIsTheDecryptionShift : 1 ≤ (1#5 : Card).toNat ∧ (1#5 : Card).toNat ≤ 26 ∧
    1 ≤ (26#5 : Card).toNat ∧ (26#5 : Card).toNat ≤ 26 := by decide

theorem witness_DecUndoesEnc : 1 ≤ (26#5 : Card).toNat ∧ (26#5 : Card).toNat ≤ 26 := by decide

/-- The message `H` on `deck2`, whose first key is 7 (95_test_vectors.md section 3.5, M-44). -/
theorem witness_DecryptionRestoresTheMessage : ∃ (k : Nat) (msg : List Byte) (s s' t : State)
    (ws : List RspWord), s.Inv ∧ s'.Inv ∧ s.Ready ∧ s'.Ready ∧ s.linear = s'.linear ∧
    (∀ c ∈ msg, isLetter c = true) ∧ issueAll k (msg.map Instr.encc) s = some (ws, t) ∧
    ws = [0x004F#16] := by
  have h : (issueAll 6 [Instr.encc 0x48#8] (loaded deck2 27)).map Prod.fst = some [0x004F#16] := by
    decide
  cases e : issueAll 6 [Instr.encc 0x48#8] (loaded deck2 27) with
  | none => rw [e] at h; nomatch h
  | some p =>
    rw [e] at h
    exact ⟨6, [0x48#8], loaded deck2 27, loaded deck2 27, p.2, p.1, deck2_inv, deck2_inv,
      deck2_ready, deck2_ready, rfl, by decide, e, by simpa using h⟩

/-- The message `,h` on `deck2`: one non-letter and one lower-case letter. -/
theorem witness_EncryptionFiltersTheMessage : ∃ (k : Nat) (msg : List Byte) (s t : State)
    (ws : List RspWord), s.Inv ∧ s.Ready ∧ s.inputs = [] ∧
    issueAll k (msg.map Instr.encc) s = some (ws, t) ∧ ws = [0x1000#16, 0x004F#16] := by
  have h : (issueAll 6 [Instr.encc 0x2C#8, .encc 0x68#8] (loaded deck2 27)).map Prod.fst =
      some [0x1000#16, 0x004F#16] := by decide
  cases e : issueAll 6 [Instr.encc 0x2C#8, .encc 0x68#8] (loaded deck2 27) with
  | none => rw [e] at h; nomatch h
  | some p =>
    rw [e] at h
    exact ⟨6, [0x2C#8, 0x68#8], loaded deck2 27, p.2, p.1, deck2_inv, deck2_ready, rfl, e,
      by simpa using h⟩

theorem witness_CommandsWriteOnlyTheirRegisters : ∃ (i : Instr) (s t : State),
    exec i s = .next t ∧ i = .tc ∧ s.GatesOpen :=
  ⟨.tc, loaded deck2 27, _, eq_next_of (by decide), rfl, deck2_open⟩

theorem witness_EveryCommandRespondsOrEntersTheLoop : ∃ (i : Instr) (s t : State),
    s.busy = false ∧ s.rsp = none ∧ exec i s = .next t :=
  ⟨.encc 0x48#8, loaded deck2 27, _, by decide, rfl, eq_next_of (by decide)⟩

theorem witness_LastErrFollowsTheErrorResponses : ∃ s t : State, step s = .next t ∧
    s.rsp = none ∧ t.rsp = some 0x9000#16 ∧ 8 ≤ (statusField 0x9000#16).toNat :=
  ⟨{ State.reset with inputs := [.offer 0x0206#16] }, _, eq_next_of (by decide), rfl, by decide,
    by decide⟩

theorem witness_LastErrFollowsTheErrorResponses_normal : ∃ s t : State, step s = .next t ∧
    s.rsp = none ∧ t.rsp = some 0x0000#16 ∧ (statusField 0x0000#16).toNat < 8 ∧
    ¬ (s.cmdReady = true ∧ s.offered = some 0x0100#16) :=
  ⟨{ State.reset with lastErr := 9#4, inputs := [.offer 0x0000#16] }, _, eq_next_of (by decide),
    rfl, by decide, by decide, by decide⟩

/-- A key loop that completes while the host already offers SRST (the key 8 of section 5, step 10). -/
theorem witness_LastErrFollowsTheErrorResponses_srst_offered : ∃ s t : State, step s = .next t ∧
    s.rsp = none ∧ t.rsp = some 0x0008#16 ∧ s.offered = some 0x0100#16 ∧
    ¬ (s.cmdReady = true ∧ s.offered = some 0x0100#16) ∧ t.lastErr = 9#4 :=
  ⟨{ loaded (deckOf
    [2, 3, 28, 4, 5, 6, 7, 8, 9, 10, 11, 12, 13, 14,
     15, 16, 17, 18, 19, 20, 21, 22, 23, 24, 25, 26, 1, 27]) 2 with
    phase := .ex, lastErr := 9#4, inputs := [.offer 0x0100#16] }, _, eq_next_of (by decide),
    rfl, by decide, by decide, by decide, by decide⟩

theorem witness_LastErrFollowsTheErrorResponses_silent : ∃ s t : State, step s = .next t ∧
    s.rsp = none ∧ t.rsp = none ∧ s.rst = false :=
  ⟨{ loaded deck2 27 with inputs := [.offer 0x3000#16] }, _, eq_next_of (by decide), rfl, by decide,
    by decide⟩

theorem witness_FatalIsSetByCorruptAndClearedByReset_set : ∃ s t : State, step s = .next t ∧
    s.fatal = false ∧ t.fatal = true :=
  ⟨{ jokerless with inputs := [.offer 0x2200#16] }, _, eq_next_of (by decide), rfl, by decide⟩

theorem witness_FatalIsSetByCorruptAndClearedByReset_cleared : ∃ s t : State, step s = .next t ∧
    s.fatal = true ∧ t.fatal = false :=
  ⟨{ State.reset with fatal := true, phase := .fault, inputs := [.offer 0x0100#16] }, _,
    eq_next_of (by decide), rfl, by decide⟩

theorem witness_StepKeepsTheControlConsistent : ∃ s t : State, s.Wf ∧ step s = .next t :=
  ⟨running .enc .character 8, _, running_inv.toWf, eq_next_of (by decide)⟩

theorem witness_StepKeepsTheDeckInvariant : ∃ s t : State, s.Inv ∧ step s = .next t ∧
    t.deck ≠ s.deck :=
  ⟨running .enc .character 8, _, running_inv, eq_next_of (by decide), by decide⟩

theorem witness_StepAnswersFromEveryConsistentState : (loaded deck2 27).Wf := deck2_inv.toWf

/-- The state in which CARD stops: LOADING = 1 with LDCNT = 28, which no run reaches. -/
theorem witness_OnlyACardPastSlot27Stops : ∃ (i : Instr) (s : State), (∀ t, exec i s ≠ .next t) :=
  ⟨.card 28#8, { jokerless with loading := true, deckValid := false }, fun t h => by
    have e : (nextOf (exec (.card 28#8)
        { jokerless with loading := true, deckValid := false })).isSome = false := by decide
    rw [h] at e; nomatch e⟩

/-- Two layouts of the view of `ident`, ANCHOR 27, and ANCHOR 0 with the slots rotated by one; the
host offers TC to both. -/
theorem witness_PhysicalLayoutIsInvisible : ∃ s s' : State, s.Wf ∧ s'.Wf ∧ SameView s s' ∧
    (∀ n, s.offered ≠ some (encode (.rds n))) ∧ s.offered ≠ some 0x0201#16 ∧
    s.offered = some (encode .tc) ∧ s.cmdReady = true ∧ s.deck ≠ s'.deck := by
  refine ⟨{ loaded ident 27 with inputs := [.offer 0x2200#16] },
    { loaded (deckOf (28 :: List.range' 1 27)) 0 with inputs := [.offer 0x2200#16] },
    ?_, ?_, ?_, ?_, ?_, ?_, ?_, ?_⟩
  · constructor <;> first | decide | (intro w h; nomatch h)
  · constructor <;> first | decide | (intro w h; nomatch h)
  · exact ⟨rfl, fun _ => by decide, fun h => nomatch h⟩
  · decide
  · decide
  · decide
  · decide
  · decide

theorem witness_UnwrittenSlotsAreUnobservable : ∃ s s' : State, s.Wf ∧ UnseenDeck s s' ∧
    s.deck ≠ s'.deck := by
  refine ⟨State.reset, { State.reset with deck := deck2 }, ?_, ⟨rfl, ?_, ?_⟩, by decide⟩
  · constructor <;> first | decide | (intro w h; nomatch h)
  · intro h; nomatch h
  · intro h; nomatch h

end Sys2Proof.Tests
end

section
/-! PROOFS of 00_scope.md: a step answers a next state (R7). `Answers` is carried through the gates of
R163 to the commands; only CARD needs anything of the state, namely a slot for the next card (R49). -/

namespace Sys2Proof.Machine

/-- The outcome is a next state, neither a stop nor a refusal (R7). -/
def Answers (r : Result) : Prop := ∃ t, r = .next t

theorem answers_next (t : State) : Answers (.next t) := ⟨t, rfl⟩

theorem answers_answer (st : Status) (data : Byte) (s : State) : Answers (answer st data s) :=
  answers_next (s.respond st data)

theorem answers_answerMicro (s : State) (r : Except Card State) : Answers (answerMicro s r) := by
  cases r with
  | error v => exact answers_next (s.raiseCorrupt v)
  | ok t => exact answers_answer .ok 0x00#8 t

theorem Answers.ite {c : Prop} [Decidable c] {a b : Result} (ha : Answers a) (hb : Answers b) :
    Answers (if c then a else b) := by
  split
  · exact ha
  · exact hb

/-! ### The gates of R163: each refuses with a response or passes the command on -/

theorem Answers.fatalGate {k : Result} (h : Answers k) (s : State) : Answers (fatalGate s k) :=
  (answers_answer ..).ite h

theorem Answers.loadingGate {k : Result} (h : Answers k) (s : State) : Answers (loadingGate s k) :=
  (answers_answer ..).ite h

theorem Answers.deckGate {k : Result} (h : Answers k) (s : State) : Answers (deckGate s k) :=
  h.ite (answers_answer ..)

theorem Answers.cipherGates {k : Result} (h : Answers k) (s : State) : Answers (cipherGates s k) :=
  ((h.deckGate s).loadingGate s).fatalGate s

/-! ### The commands -/

theorem answers_execRdr (r : Byte) (s : State) : Answers (execRdr r s) := by
  unfold execRdr
  split <;> exact answers_answer ..

theorem answers_execRds (n : Byte) (s : State) : Answers (execRds n s) := by
  refine Answers.cipherGates ?_ s
  split <;> exact answers_answer ..

theorem answers_acceptCard (v : Byte) {s : State} (h : s.ldcnt.toNat < 28) :
    Answers (acceptCard v s) := by
  rw [acceptCard, dif_pos h]
  exact answers_answer ..

/-- CARD reaches the slot `DECK[LDCNT]` only while a load is open (R82). -/
theorem answers_execCard (v : Byte) {s : State} (h : s.loading = true → s.ldcnt.toNat < 28) :
    Answers (execCard v s) := by
  refine Answers.fatalGate ?_ s
  cases hl : s.loading with
  | false => exact answers_answer ..
  | true =>
    have accepted : Answers (acceptCard v s) := answers_acceptCard v (h hl)
    exact (answers_answer ..).ite ((answers_answer ..).ite ((answers_answer ..).ite accepted))

theorem exec_answers_of_ne_card {i : Instr} (h : ∀ v, i ≠ .card v) (s : State) :
    Answers (exec i s) := by
  cases i with
  | card v => exact absurd rfl (h v)
  | nop | srst => exact answers_answer ..
  | rdr r => exact answers_execRdr r s
  | rds n => exact answers_execRds n s
  | load => exact ((answers_answer ..).loadingGate s).fatalGate s
  | ja | jb | tc => exact (answers_answerMicro ..).cipherGates s
  | cc | ex => exact (answers_answer ..).cipherGates s
  | key => exact (answers_next _).cipherGates s
  | enci | deci | encc | decc => exact ((answers_next _).ite (answers_answer ..)).cipherGates s
  | rdp | find => exact ((answers_answer ..).ite (answers_answer ..)).cipherGates s

theorem exec_answers (i : Instr) {s : State} (h : s.loading = true → s.ldcnt.toNat < 28) :
    Answers (exec i s) := by
  by_cases hc : ∃ v, i = .card v
  · obtain ⟨v, rfl⟩ := hc
    exact answers_execCard v h
  · exact exec_answers_of_ne_card (fun v e => hc ⟨v, e⟩) s

theorem runWord_answers (w : CmdWord) {s : State} (h : s.loading = true → s.ldcnt.toNat < 28) :
    Answers (runWord w s) := by
  obtain ⟨i, -, e⟩ | ⟨_, -, e⟩ := runWord_cases w s
  · exact e ▸ exec_answers i h
  · exact ⟨_, e⟩

/-- Of the consistency of the state only the bound on LDCNT during a load matters. -/
theorem step_answers {s : State} (h : s.loading = true → s.ldcnt.toNat < 28) :
    Answers (step s) := by
  obtain ⟨-, e⟩ | ⟨-, -, e⟩ | ⟨-, -, -, e⟩ | ⟨-, w, -, e⟩ | ⟨-, -, e⟩ := step_cases s
  case inr.inr.inr.inl =>
    have ready : Answers (runWord w s.dropInput) := runWord_answers w (by simpa using h)
    exact e ▸ ready
  all_goals exact ⟨_, e⟩

/-- Settles O55: every event of R60 answers a next state, an accepted CARD because a consistent state
has a slot left while a load is open. -/
theorem stepAnswersFromEveryConsistentState :
    Obligations.StepAnswersFromEveryConsistentState :=
  fun _ hwf => step_answers hwf.loading_lt

end Sys2Proof.Machine
end

section
/-! SUPPORT for 10_state.md. The four transform steps under one name each, and what an accepted
command can do, said once: `exec_effect`. -/

namespace Sys2Proof.Machine

/-! ### The transform steps as commands and as phases of the key loop (R108, R112 to R115, R122) -/

/-- A transform step. -/
inductive Transform where
  | ja
  | jb
  | tc
  | cc

/-- The command that runs the step once. -/
def Transform.instr : Transform → Instr
  | .ja => .ja
  | .jb => .jb
  | .tc => .tc
  | .cc => .cc

/-- The phase of the key loop in which the step is next. -/
def Transform.phase : Transform → Phase
  | .ja => .ja
  | .jb => .jb
  | .tc => .tc
  | .cc => .cc

/-- The phase after that. -/
def Transform.nextPhase : Transform → Phase
  | .ja => .jb
  | .jb => .tc
  | .tc => .cc
  | .cc => .ex

/-- The micro-operation of the step. -/
def Transform.run : Transform → State → Except Card State
  | .ja => microJA
  | .jb => microJB
  | .tc => microTC
  | .cc => fun s => .ok (microCC s)

theorem exec_transform (m : Transform) (s : State) :
    exec m.instr s = cipherGates s (answerMicro s (m.run s)) := by
  cases m <;> rfl

theorem Transform.run_cc (s : State) : Transform.run .cc s = .ok (microCC s) := rfl

theorem microStep_transform (m : Transform) {s : State} (h : s.phase = m.phase) :
    microStep s = advance s (m.run s) m.nextPhase := by
  cases m <;> simp only [microStep, h, Transform.phase] <;> rfl

theorem microStep_extract {s : State} (h : s.phase = .ex) : microStep s = extractStep s := by
  simp only [microStep, h]

/-- A running phase is that of a transform step, or EX. -/
theorem running_cases {s : State} (h : s.busy = true) :
    (∃ m : Transform, s.phase = m.phase) ∨ s.phase = .ex := by
  unfold State.busy at h
  cases e : s.phase with
  | ja => exact .inl ⟨.ja, rfl⟩
  | jb => exact .inl ⟨.jb, rfl⟩
  | tc => exact .inl ⟨.tc, rfl⟩
  | cc => exact .inl ⟨.cc, rfl⟩
  | ex => exact .inr rfl
  | idle | fault => rw [e] at h; nomatch h

@[simp] theorem Transform.running_phase (m : Transform) : m.phase.running = true := by
  cases m <;> rfl

@[simp] theorem Transform.running_nextPhase (m : Transform) : m.nextPhase.running = true := by
  cases m <;> rfl

theorem Transform.run_frame {m : Transform} {s t : State} (h : m.run s = .ok t) :
    t = { s with deck := t.deck, anchor := t.anchor } := by
  cases m with
  | ja => rw [microJA_frame h]
  | jb => rw [microJB_frame h]
  | tc => exact microTC_frame h
  | cc => rw [← Except.ok.inj ((Transform.run_cc s).symm.trans h)]; simp only [microCC]

/-- Only TripleCut moves the anchor (R43). -/
theorem Transform.run_anchor {m : Transform} {s t : State} (h : m.run s = .ok t) :
    t.anchor = s.anchor ∨
      m = .tc ∧ ∃ p1 p2, t.anchor = tripleCutAnchor s.anchor p1 p2 := by
  cases m with
  | ja => rw [microJA_frame h]; exact .inl rfl
  | jb => rw [microJB_frame h]; exact .inl rfl
  | cc => rw [← Except.ok.inj ((Transform.run_cc s).symm.trans h)]; exact .inl (microCC_anchor s)
  | tc =>
    obtain ⟨_, e⟩ | ⟨_, _, e⟩ | ⟨pa, pb, _, _, e⟩ := microTC_cases s
    · rw [Transform.run, e] at h; nomatch h
    · rw [Transform.run, e] at h; nomatch h
    · rw [← Except.ok.inj (e.symm.trans h)]
      exact .inr ⟨rfl, _, _, rfl⟩

theorem tripleCutAnchor_lt (a : Card) (p1 p2 : Nat) : (tripleCutAnchor a p1 p2).toNat < 28 := by
  have hmod := Nat.mod_lt (a.toNat + (p1 - 1) + 28 - (28 - p2)) (show 0 < 28 by decide)
  rw [tripleCutAnchor, BitVec.toNat_ofNat]
  omega

/-- Corrupt is raised for one of the sentinels, and never by CountCut (R110). -/
theorem Transform.run_error {m : Transform} {s : State} {v : Card} (h : m.run s = .error v) :
    (v = 27#5 ∨ v = 28#5) ∧ s.findCard v = none ∧ m ≠ .cc := by
  cases m with
  | ja =>
    obtain ⟨hf, e⟩ | ⟨p, _, e⟩ := microJA_cases s
    · cases e.symm.trans h; exact ⟨.inl rfl, hf, nofun⟩
    · cases e.symm.trans h
  | jb =>
    obtain ⟨hf, e⟩ | ⟨p, _, e⟩ := microJB_cases s
    · cases e.symm.trans h; exact ⟨.inr rfl, hf, nofun⟩
    · cases e.symm.trans h
  | tc =>
    obtain ⟨hf, e⟩ | ⟨_, hf, e⟩ | ⟨pa, pb, _, _, e⟩ := microTC_cases s
    · cases e.symm.trans h; exact ⟨.inl rfl, hf, nofun⟩
    · cases e.symm.trans h; exact ⟨.inr rfl, hf, nofun⟩
    · cases e.symm.trans h
  | cc => nomatch h

/-! ### What an accepted command can do -/

/-- The commands that enter the key loop (R121). -/
def IsLoopCommand (i : Instr) : Prop :=
  i = .key ∨ ∃ b, i = .enci b ∨ i = .deci b ∨ i = .encc b ∨ i = .decc b

/-- `Effect s i t`: the effects that the command `i` can have on `s`, each under its own guards. -/
inductive Effect (s : State) : Instr → State → Prop where
  /-- A response and nothing else: a read, a refusal, a dropped character. -/
  | responds (i : Instr) (st : Status) (d : Byte) : Effect s i (s.respond st d)
  /-- SRST (R151). -/
  | resets : Effect s .srst (s.resetRegisters.respond .ok 0x00#8)
  /-- The LOADING gate (R163), and the errors of CARD in an open load (R82). -/
  | closesLoad (i : Instr) (st : Status) (d : Byte) (hf : s.fatal = false) (hl : s.loading = true) :
      Effect s i ({ s with loading := false }.respond st d)
  /-- LOAD (R81). -/
  | opensLoad (hf : s.fatal = false) (hl : s.loading = false) :
      Effect s .load
        ({ s with deckValid := false, keyValid := false, loading := true, ldcnt := 0#5 }.respond
          .ok 0x00#8)
  /-- CARD without an open load (R82). -/
  | dropsDeck (v : Byte) (st : Status) (d : Byte) (hf : s.fatal = false) (hl : s.loading = false) :
      Effect s (.card v) ({ s with deckValid := false, keyValid := false }.respond st d)
  /-- An accepted CARD before the 28th (R82). -/
  | storesCard (v d : Byte) (h : s.ldcnt.toNat < 28) (hf : s.fatal = false) (hl : s.loading = true)
      (hv : isCardOperand v = true) (hnew : alreadyLoaded s v = false) (hn : s.ldcnt ≠ 27#5) :
      Effect s (.card v)
        ({ s with deck := s.deck.set s.ldcnt.toNat (narrow v) h, ldcnt := s.ldcnt + 1#5 }.respond
          .ok d)
  /-- The 28th accepted CARD (R82). -/
  | completesLoad (v d : Byte) (h : s.ldcnt.toNat < 28) (hf : s.fatal = false)
      (hl : s.loading = true) (hv : isCardOperand v = true) (hnew : alreadyLoaded s v = false)
      (hn : s.ldcnt = 27#5) :
      Effect s (.card v)
        ({ s with
            deck := s.deck.set s.ldcnt.toNat (narrow v) h, ldcnt := 28#5,
            loading := false, deckValid := true, anchor := 27#5 }.respond .ok d)
  /-- JA, JB, TC or CC succeeds (R112 to R115). -/
  | transforms (m : Transform) (t : State) (ho : s.GatesOpen) (h : m.run s = .ok t) :
      Effect s m.instr (t.respond .ok 0x00#8)
  /-- JA, JB or TC misses a sentinel (R110, R165). -/
  | corrupts (m : Transform) (v : Card) (ho : s.GatesOpen) (h : m.run s = .error v) :
      Effect s m.instr (s.raiseCorrupt v)
  /-- EX (R116). -/
  | extracts (st : Status) (d : Byte) (ho : s.GatesOpen) :
      Effect s .ex ((microEX s).respond st d)
  /-- KEY or a mapper command enters the key loop (R121). -/
  | entersLoop (i : Instr) (mode : Mode) (form : Form) (letter : Card) (ho : s.GatesOpen)
      (hi : IsLoopCommand i)
      (hletter : mode ≠ .keyonly → 1 ≤ letter.toNat ∧ letter.toNat ≤ 26) :
      Effect s i (s.loopEntry mode form letter)

theorem answer_next {st : Status} {d : Byte} {s t : State} (h : answer st d s = .next t) :
    t = s.respond st d :=
  (Host.Outcome.next.inj h).symm

theorem fatalGate_next {s t : State} {k : Result} (h : fatalGate s k = .next t) :
    (s.fatal = true ∧ t = s.respond .errFatal 0x00#8) ∨ (s.fatal = false ∧ k = .next t) := by
  unfold fatalGate at h
  split at h
  case isTrue hf => exact .inl ⟨hf, answer_next h⟩
  case isFalse hf => exact .inr ⟨by simpa using hf, h⟩

theorem loadingGate_next {s t : State} {k : Result} (h : loadingGate s k = .next t) :
    (s.loading = true ∧ t = { s with loading := false }.respond .errCfgLen (zext s.ldcnt)) ∨
      (s.loading = false ∧ k = .next t) := by
  unfold loadingGate at h
  split at h
  case isTrue hl => exact .inl ⟨hl, answer_next h⟩
  case isFalse hl => exact .inr ⟨by simpa using hl, h⟩

/-- The gates themselves only respond or close an open load. -/
theorem Effect.of_cipherGates {i : Instr} {s t : State} {k : Result}
    (h : cipherGates s k = .next t) (hk : s.GatesOpen → k = .next t → Effect s i t) :
    Effect s i t := by
  obtain ⟨-, rfl⟩ | ⟨hf, hl, rfl⟩ | ⟨-, -, -, rfl⟩ | ⟨ho, e⟩ := cipherGates_next h
  · exact .responds ..
  · exact .closesLoad _ _ _ hf hl
  · exact .responds ..
  · exact hk ho e

theorem execRdr_effect {r : Byte} {s t : State} (h : execRdr r s = .next t) :
    Effect s (.rdr r) t := by
  unfold execRdr at h
  split at h <;> obtain rfl := answer_next h <;> exact .responds ..

theorem execLoad_effect {s t : State} (h : execLoad s = .next t) : Effect s .load t := by
  obtain ⟨-, rfl⟩ | ⟨hf, h⟩ := fatalGate_next h
  · exact .responds ..
  obtain ⟨hl, rfl⟩ | ⟨hl, h⟩ := loadingGate_next h
  · exact .closesLoad _ _ _ hf hl
  · obtain rfl := answer_next h
    exact .opensLoad hf hl

theorem acceptCard_effect {v : Byte} {s t : State} (hf : s.fatal = false) (hl : s.loading = true)
    (hv : isCardOperand v = true) (hnew : alreadyLoaded s v = false)
    (h : acceptCard v s = .next t) : Effect s (.card v) t := by
  unfold acceptCard at h
  split at h
  case isFalse => nomatch h
  case isTrue hlt =>
    obtain rfl := answer_next h
    by_cases hn : s.ldcnt = 27#5
    · have hs : s.ldcnt + 1#5 = 28#5 := by rw [hn]; rfl
      simp only [hs, if_true]
      exact .completesLoad v _ hlt hf hl hv hnew hn
    · have hs : s.ldcnt + 1#5 ≠ 28#5 := by bv_omega
      simp only [hs, if_false]
      exact .storesCard v _ hlt hf hl hv hnew hn

theorem execCard_effect {v : Byte} {s t : State} (h : execCard v s = .next t) :
    Effect s (.card v) t := by
  obtain ⟨-, rfl⟩ | ⟨hf, h⟩ := fatalGate_next h
  · exact .responds ..
  split at h
  case isTrue hl => obtain rfl := answer_next h; exact .dropsDeck v _ _ hf (by simpa using hl)
  case isFalse hl =>
    replace hl : s.loading = true := by simpa using hl
    split at h
    case isTrue => obtain rfl := answer_next h; exact .closesLoad _ _ _ hf hl
    case isFalse hv =>
      split at h
      case isTrue => obtain rfl := answer_next h; exact .closesLoad _ _ _ hf hl
      case isFalse hnew =>
        exact acceptCard_effect hf hl (by simpa using hv) (by simpa using hnew) h

theorem exec_transform_effect {m : Transform} {s t : State} (h : exec m.instr s = .next t) :
    Effect s m.instr t := by
  rw [exec_transform] at h
  refine .of_cipherGates h fun ho h => ?_
  cases e : m.run s with
  | error v => rw [e] at h; cases h; exact .corrupts m v ho e
  | ok u => rw [e] at h; cases h; exact .transforms m u ho e

/-- A mapper command enters the loop with a legal letter or only responds. -/
theorem mapper_effect {i : Instr} {s t : State} {c : Bool} {mode : Mode} {form : Form}
    {letter : Card} {st : Status} {d : Byte} (hi : IsLoopCommand i)
    (hletter : c = true → 1 ≤ letter.toNat ∧ letter.toNat ≤ 26)
    (h : cipherGates s
      (if c then .next (s.loopEntry mode form letter) else answer st d s) = .next t) :
    Effect s i t := by
  refine .of_cipherGates h fun ho h => ?_
  split at h
  case isTrue hc => cases h; exact .entersLoop _ _ _ _ ho hi fun _ => hletter hc
  case isFalse => obtain rfl := answer_next h; exact .responds ..

/-- A deck access command only responds. -/
theorem access_effect {i : Instr} {s t : State} {c : Prop} [Decidable c] {st st' : Status}
    {d d' : Byte} (h : cipherGates s (if c then answer st d s else answer st' d' s) = .next t) :
    Effect s i t := by
  refine .of_cipherGates h fun _ h => ?_
  split at h <;> obtain rfl := answer_next h <;> exact .responds ..

theorem execRds_effect {n : Byte} {s t : State} (h : execRds n s = .next t) :
    Effect s (.rds n) t := by
  refine .of_cipherGates h fun _ h => ?_
  split at h <;> obtain rfl := answer_next h <;> exact .responds ..

theorem narrow_legal {b : Byte} (h : isIndexOperand b = true) :
    1 ≤ (narrow b).toNat ∧ (narrow b).toNat ≤ 26 := by
  simp only [isIndexOperand, inRange, decide_eq_true_eq] at h
  simp only [narrow, BitVec.toNat_setWidth]
  omega

theorem letterIndex_legal {c : Byte} (h : isLetter c = true) :
    1 ≤ (letterIndex c).toNat ∧ (letterIndex c).toNat ≤ 26 := by
  unfold letterIndex
  simp only [isLetter, isUpper, isLower, inRange, Bool.or_eq_true, decide_eq_true_eq] at h ⊢
  split <;> simp only [narrow, BitVec.toNat_setWidth] <;> bv_omega

theorem letterIndex_legal_of_isUpper {c : Byte} (h : isUpper c = true) :
    1 ≤ (letterIndex c).toNat ∧ (letterIndex c).toNat ≤ 26 :=
  letterIndex_legal (by rw [isLetter, h, Bool.true_or])

/-- Every next state of a command comes from one of its effects. -/
theorem exec_effect {i : Instr} {s t : State} (h : exec i s = .next t) : Effect s i t := by
  cases i with
  | nop => obtain rfl := answer_next h; exact .responds ..
  | srst => obtain rfl := answer_next h; exact .resets
  | rdr r => exact execRdr_effect h
  | load => exact execLoad_effect h
  | card v => exact execCard_effect h
  | ja => exact exec_transform_effect (m := .ja) h
  | jb => exact exec_transform_effect (m := .jb) h
  | tc => exact exec_transform_effect (m := .tc) h
  | cc => exact exec_transform_effect (m := .cc) h
  | ex =>
    refine .of_cipherGates h fun ho h => ?_
    obtain rfl := answer_next h
    exact .extracts _ _ ho
  | key =>
    refine .of_cipherGates h fun ho h => ?_
    cases h
    exact .entersLoop _ _ _ _ ho (.inl rfl) (absurd rfl)
  | enci b => exact mapper_effect (.inr ⟨b, .inl rfl⟩) narrow_legal h
  | deci b => exact mapper_effect (.inr ⟨b, .inr (.inl rfl)⟩) narrow_legal h
  | encc b => exact mapper_effect (.inr ⟨b, .inr (.inr (.inl rfl))⟩) letterIndex_legal h
  | decc b =>
    exact mapper_effect (.inr ⟨b, .inr (.inr (.inr rfl))⟩) letterIndex_legal_of_isUpper h
  | rdp p => exact access_effect h
  | rds n => exact execRds_effect h
  | find v => exact access_effect h

end Sys2Proof.Machine
end

section
/-! SUPPORT for 10_state.md. What a micro-step and a step can do, said once: `microStep_effect` and
`step_effect`. -/

namespace Sys2Proof.Machine

/-- `MicroEffect s t`: the effects that a micro-step of a running engine can have on `s` (R122 to
R124, R128). -/
inductive MicroEffect (s : State) : State → Prop where
  /-- A transform step succeeds and PHASE advances (R122). -/
  | transforms (m : Transform) (t : State) (hp : s.phase = m.phase) (h : m.run s = .ok t) :
      MicroEffect s { t with phase := m.nextPhase }
  /-- A transform step misses a sentinel (R128). -/
  | corrupts (m : Transform) (v : Card) (hp : s.phase = m.phase) (h : m.run s = .error v) :
      MicroEffect s (s.raiseCorrupt v)
  /-- The candidate is a key and the command completes (R123, R124). -/
  | completes (hp : s.phase = .ex) (ha : accepts s.candidate = true) :
      MicroEffect s ({ microEX s with phase := .idle }.respond .ok (microEX s).completionData)
  /-- The candidate is a joker and the next cycle begins (R123). -/
  | retries (hp : s.phase = .ex) (ha : accepts s.candidate = false) :
      MicroEffect s { microEX s with retry := retrySucc s.retry, phase := .ja }

theorem microStep_effect {s : State} (h : s.busy = true) : MicroEffect s (microStep s) := by
  obtain ⟨m, hp⟩ | hp := running_cases h
  · rw [microStep_transform m hp]
    cases e : m.run s with
    | error v => exact .corrupts m v hp e
    | ok t => exact .transforms m t hp e
  · rw [microStep_extract hp]
    unfold extractStep
    cases ha : accepts s.candidate with
    | true => exact .completes hp ha
    | false => simpa using MicroEffect.retries hp ha

/-- The extraction writes CAND, KEY and KEY_VALID (R109). -/
theorem microEX_eq (s : State) :
    microEX s = { s with
      cand := s.candidate, key := if accepts s.candidate then s.candidate else s.key,
      keyValid := accepts s.candidate } := by
  unfold microEX
  cases accepts s.candidate <;> rfl

theorem State.passTime_eq (s : State) : s.passTime = { s with inputs := s.passTime.inputs } := by
  unfold State.passTime
  split <;> rfl

/-- A served response is taken or stays, and no register is written (R60, R185). -/
theorem State.serveResponse_eq (s : State) :
    s.serveResponse = { s with
      rsp := if s.rspReady then none else s.rsp, inputs := s.serveResponse.inputs } := by
  unfold State.serveResponse
  split
  · rfl
  · exact s.passTime_eq

/-- `StepEffect s t`: the effects that one step can have on `s` (R60). -/
inductive StepEffect (s : State) : State → Prop where
  /-- Reset (R180 to R182). -/
  | resets (h : s.rst = true) : StepEffect s s.hardReset
  /-- A micro-step of the key loop (R121). -/
  | runs (t : State) (hr : s.rst = false) (hb : s.busy = true) (h : MicroEffect s.passTime t) :
      StepEffect s t
  /-- Nothing happens, or a waiting response is taken (R60, R185). -/
  | passes (rsp : Option RspWord) (inputs : List PortEvent) (h : rsp = none ∨ rsp = s.rsp) :
      StepEffect s { s with rsp := rsp, inputs := inputs }
  /-- A command is accepted and executed (R60, R163). -/
  | executes (w : CmdWord) (i : Instr) (t : State) (hready : s.cmdReady = true)
      (ho : s.offered = some w) (hd : decode w = .ok i) (h : Effect s.dropInput i t) :
      StepEffect s t
  /-- An illegal word is accepted and refused (R65). -/
  | rejects (w : CmdWord) (hready : s.cmdReady = true) (ho : s.offered = some w) :
      StepEffect s (s.dropInput.respond .errIllegal 0x00#8)

theorem step_effect {s t : State} (h : step s = .next t) : StepEffect s t := by
  obtain ⟨hr, e⟩ | ⟨hr, hb, e⟩ | ⟨-, -, -, e⟩ | ⟨hready, w, ho, e⟩ | ⟨-, -, e⟩ := step_cases s
  · cases e.symm.trans h
    exact .resets hr
  · obtain rfl := Host.Outcome.next.inj (e.symm.trans h)
    exact .runs _ hr hb (microStep_effect (by simpa [State.busy] using hb))
  · obtain rfl := Host.Outcome.next.inj (e.symm.trans h)
    rw [State.serveResponse_eq]
    refine .passes _ _ ?_
    cases s.rspReady
    · exact .inr rfl
    · exact .inl rfl
  · obtain ⟨i, hd, e'⟩ | ⟨_, -, e'⟩ := runWord_cases w s.dropInput
    · exact .executes w i t hready ho hd (exec_effect (e'.symm.trans (e.symm.trans h)))
    · obtain rfl := Host.Outcome.next.inj (e'.symm.trans (e.symm.trans h))
      exact .rejects w hready ho
  · obtain rfl := Host.Outcome.next.inj (e.symm.trans h)
    rw [State.passTime_eq]
    exact .passes s.rsp _ (.inr rfl)

/-- A ready engine has no response waiting and runs no loop (R60). -/
theorem State.cmdReady_iff {s : State} :
    s.cmdReady = true ↔ s.rst = false ∧ s.busy = false ∧ s.rsp = none := by
  simp [State.cmdReady, and_assoc]

/-- The induction step of every invariant: what the effects of commands and micro-steps keep, what
the ports' acts keep, and what reset establishes, every step keeps. -/
theorem step_keeps {P : State → Prop} {s t : State}
    (reset : P s.hardReset)
    (ports : ∀ rsp inputs, rsp = none ∨ rsp = s.rsp → P s →
      P { s with rsp := rsp, inputs := inputs })
    (command : ∀ {u i}, u.busy = false → u.rsp = none → Effect u i t → P u → P t)
    (micro : ∀ {u}, u.busy = true → MicroEffect u t → P u → P t)
    (hs : P s) (h : step s = .next t) : P t := by
  have dropped : P s.dropInput := ports s.rsp s.inputs.tail (.inr rfl) hs
  cases step_effect h with
  | resets => exact reset
  | runs _ _ hb h =>
    have passed : P s.passTime := by
      rw [State.passTime_eq]
      exact ports s.rsp _ (.inr rfl) hs
    exact micro (by simpa [State.busy] using hb) h passed
  | passes rsp inputs hrsp => exact ports rsp inputs hrsp hs
  | executes w i _ hready _ _ h =>
    obtain ⟨-, hb, hr⟩ := State.cmdReady_iff.mp hready
    exact command (u := s.dropInput) hb hr h dropped
  | rejects w hready _ =>
    obtain ⟨-, hb, hr⟩ := State.cmdReady_iff.mp hready
    exact command (u := s.dropInput) hb hr (.responds .nop _ _) dropped

end Sys2Proof.Machine
end

section
/-! PROOFS of 10_state.md: the control registers stay consistent (`State.Wf`). One lemma per
effect, then `step_keeps`. -/

namespace Sys2Proof.Machine

/-! ### What keeps `State.Wf` -/

theorem nextLastErr_legal (st : Status) {old : BitVec 4} (h : old = 0#4 ∨ 8 ≤ old.toNat) :
    nextLastErr st old = 0#4 ∨ 8 ≤ (nextLastErr st old).toNat := by
  cases he : st.isError with
  | true => rw [nextLastErr_error he]; exact .inr (by simpa [Status.isError] using he)
  | false => rw [nextLastErr_normal he]; exact h

theorem State.Wf.not_fatal_of_busy {s : State} (h : s.Wf) (hb : s.busy = true) :
    s.fatal = false := by
  cases hf : s.fatal with
  | false => rfl
  | true => rw [State.busy, h.fatal_iff.mp hf] at hb; nomatch hb

theorem State.Wf.not_loading_of_busy {s : State} (h : s.Wf) (hb : s.busy = true) :
    s.loading = false :=
  h.valid_not_loading (h.busy_loop hb).1

section

variable {s : State}

theorem State.Wf.ports (h : s.Wf) {rsp : Option RspWord} (inputs : List PortEvent)
    (hr : rsp = none ∨ rsp = s.rsp) : { s with rsp := rsp, inputs := inputs }.Wf where
  __ := h
  busy_loop hb := by
    obtain ⟨hv, hk, hn⟩ := h.busy_loop hb
    exact ⟨hv, hk, hr.elim id (·.trans hn)⟩
  rsp_format w hw := by
    obtain rfl | rfl := hr
    · nomatch hw
    · exact h.rsp_format w hw

theorem State.Wf.respond (h : s.Wf) (hb : s.busy = false) (st : Status) (d : Byte) :
    (s.respond st d).Wf where
  __ := h
  busy_loop hb' := nomatch hb.symm.trans hb'
  lastErr_legal := nextLastErr_legal st h.lastErr_legal
  rsp_format _ hw := ⟨st, d, (Option.some.inj hw).symm⟩

theorem State.resetRegisters_wf (hr : s.rsp = none) : s.resetRegisters.Wf where
  anchor_lt := show (27#5 : Card).toNat < 28 by decide
  ldcnt_le := show (0#5 : Card).toNat ≤ 28 by decide
  loading_lt := nofun
  fatal_iff := ⟨nofun, nofun⟩
  valid_not_loading := nofun
  fatal_not_loading := nofun
  fatal_not_valid := nofun
  busy_loop := nofun
  lastErr_legal := .inl rfl
  rsp_format w hw := nomatch hr.symm.trans hw
  letter_legal := nofun

theorem State.Wf.closeLoad (h : s.Wf) : { s with loading := false }.Wf where
  __ := h
  loading_lt := nofun
  valid_not_loading _ := rfl
  fatal_not_loading _ := rfl

theorem State.Wf.openLoad (h : s.Wf) (hb : s.busy = false) (hf : s.fatal = false) :
    { s with deckValid := false, keyValid := false, loading := true, ldcnt := 0#5 }.Wf where
  __ := h
  ldcnt_le := show (0#5 : Card).toNat ≤ 28 by decide
  loading_lt _ := show (0#5 : Card).toNat < 28 by decide
  valid_not_loading := nofun
  fatal_not_loading hf' := nomatch hf.symm.trans hf'
  fatal_not_valid _ := rfl
  busy_loop hb' := nomatch hb.symm.trans hb'

theorem State.Wf.dropDeck (h : s.Wf) (hb : s.busy = false) :
    { s with deckValid := false, keyValid := false }.Wf where
  __ := h
  valid_not_loading := nofun
  fatal_not_valid _ := rfl
  busy_loop hb' := nomatch hb.symm.trans hb'

theorem toNat_succ_of_lt {n : Card} (h : n.toNat < 28) : (n + 1#5).toNat = n.toNat + 1 := by
  rw [BitVec.toNat_add]
  exact Nat.mod_eq_of_lt (by rw [BitVec.toNat_ofNat]; omega)

theorem State.Wf.storeCard (h : s.Wf) (d : Deck) (hlt : s.ldcnt.toNat < 28) (hn : s.ldcnt ≠ 27#5) :
    { s with deck := d, ldcnt := s.ldcnt + 1#5 }.Wf :=
  have hlt' : s.ldcnt.toNat ≠ 27 := fun e => hn (BitVec.eq_of_toNat_eq e)
  have hsucc : (s.ldcnt + 1#5).toNat < 28 := by rw [toNat_succ_of_lt hlt]; omega
  { h with ldcnt_le := hsucc.le, loading_lt := fun _ => hsucc }

theorem State.Wf.completeLoad (h : s.Wf) (d : Deck) (hb : s.busy = false) (hf : s.fatal = false) :
    { s with
      deck := d, ldcnt := 28#5, loading := false, deckValid := true, anchor := 27#5 }.Wf where
  __ := h
  anchor_lt := show (27#5 : Card).toNat < 28 by decide
  ldcnt_le := show (28#5 : Card).toNat ≤ 28 by decide
  loading_lt := nofun
  valid_not_loading _ := rfl
  fatal_not_loading _ := rfl
  fatal_not_valid hf' := nomatch hf.symm.trans hf'
  busy_loop hb' := nomatch hb.symm.trans hb'

/-- A transform step moves ANCHOR to a slot index (R105). -/
theorem State.Wf.transform (h : s.Wf) {m : Transform} {t : State} (hm : m.run s = .ok t) :
    t.Wf := by
  have ha : t.anchor.toNat < 28 := by
    obtain e | ⟨-, p1, p2, e⟩ := Transform.run_anchor hm
    · rw [e]; exact h.anchor_lt
    · rw [e]; exact tripleCutAnchor_lt ..
  rw [Transform.run_frame hm]
  exact { h with anchor_lt := ha }

theorem State.Wf.raiseCorrupt (h : s.Wf) (hl : s.loading = false) (v : Card) :
    (s.raiseCorrupt v).Wf where
  __ := h
  fatal_iff := ⟨fun _ => rfl, fun _ => rfl⟩
  valid_not_loading := nofun
  fatal_not_loading _ := hl
  fatal_not_valid _ := rfl
  busy_loop := nofun
  lastErr_legal := .inr (show 8 ≤ (0xE#4 : BitVec 4).toNat by decide)
  rsp_format _ hw := ⟨.errCorrupt, zext v, (Option.some.inj hw).symm⟩
  letter_legal := nofun

theorem State.Wf.extract (h : s.Wf) (hb : s.busy = false) : (microEX s).Wf := by
  rw [microEX_eq]
  exact { h with busy_loop := fun hb' => (nomatch hb.symm.trans hb') }

theorem State.Wf.loopEntry (h : s.Wf) (ho : s.GatesOpen) (hr : s.rsp = none) {mode : Mode}
    {letter : Card} (hletter : mode ≠ .keyonly → 1 ≤ letter.toNat ∧ letter.toNat ≤ 26)
    (form : Form) : (s.loopEntry mode form letter).Wf where
  __ := h
  fatal_iff := ⟨fun hf => (nomatch ho.1.symm.trans hf), nofun⟩
  busy_loop _ := ⟨ho.2.2, rfl, hr⟩
  letter_legal _ := hletter

/-- PHASE advances inside the loop. -/
theorem State.Wf.advance (h : s.Wf) (hb : s.busy = true) {p : Phase} (hp : p.running = true) :
    { s with phase := p }.Wf where
  __ := h
  fatal_iff := ⟨fun hf => (nomatch (h.not_fatal_of_busy hb).symm.trans hf),
    fun e => by subst e; nomatch hp⟩
  busy_loop _ := h.busy_loop hb
  letter_legal _ := h.letter_legal hb

theorem State.Wf.complete (h : s.Wf) (hb : s.busy = true) :
    { microEX s with phase := .idle }.Wf := by
  rw [microEX_eq]
  exact { h with
    fatal_iff := ⟨fun hf => (nomatch (h.not_fatal_of_busy hb).symm.trans hf), nofun⟩
    busy_loop := nofun
    letter_legal := nofun }

theorem State.Wf.retry (h : s.Wf) (hb : s.busy = true) (ha : accepts s.candidate = false)
    (r : Byte) : { microEX s with retry := r, phase := .ja }.Wf := by
  obtain ⟨hv, -, hr⟩ := h.busy_loop hb
  rw [microEX_eq, ha]
  exact { h.advance hb (p := .ja) rfl with busy_loop := fun _ => ⟨hv, rfl, hr⟩ }

/-! ### Commands, micro-steps and steps -/

theorem Effect.keeps_wf {i : Instr} {t : State} (e : Effect s i t) (hb : s.busy = false)
    (hr : s.rsp = none) (h : s.Wf) : t.Wf := by
  cases e with
  | responds => exact h.respond hb ..
  | resets => exact (State.resetRegisters_wf hr).respond rfl ..
  | closesLoad => exact h.closeLoad.respond hb ..
  | opensLoad hf _ => exact (h.openLoad hb hf).respond hb ..
  | dropsDeck => exact (h.dropDeck hb).respond hb ..
  | storesCard _ _ hlt _ _ _ _ hn => exact (h.storeCard _ hlt hn).respond hb ..
  | completesLoad _ _ _ hf => exact (h.completeLoad _ hb hf).respond hb ..
  | transforms m t _ hm =>
    have hb' : t.busy = false := by rw [Transform.run_frame hm]; exact hb
    exact (h.transform hm).respond hb' ..
  | corrupts m v ho => exact h.raiseCorrupt ho.2.1 v
  | extracts =>
    have hb' : (microEX s).busy = false := by rw [State.busy, microEX_phase]; exact hb
    exact (h.extract hb).respond hb' ..
  | entersLoop _ _ form _ ho _ hletter => exact h.loopEntry ho hr hletter form

theorem MicroEffect.keeps_wf {t : State} (e : MicroEffect s t) (hb : s.busy = true) (h : s.Wf) :
    t.Wf := by
  cases e with
  | transforms m t _ hm =>
    have hb' : t.busy = true := by rw [Transform.run_frame hm]; exact hb
    exact (h.transform hm).advance hb' m.running_nextPhase
  | corrupts m v => exact h.raiseCorrupt (h.not_loading_of_busy hb) v
  | completes => exact (h.complete hb).respond rfl ..
  | retries _ ha => exact h.retry hb ha _

end

theorem State.hardReset_wf (s : State) : s.hardReset.Wf :=
  State.resetRegisters_wf (s := s.hardReset) rfl

/-- Settles O53: each effect of a command, of a micro-step and of the ports keeps the control
registers consistent, and reset makes them so. -/
theorem stepKeepsTheControlConsistent : Obligations.StepKeepsTheControlConsistent :=
  fun s _ => step_keeps s.hardReset_wf
    (fun _ inputs hrsp h => h.ports inputs hrsp)
    (fun hb hr e h => e.keeps_wf hb hr h)
    (fun hb e h => e.keeps_wf hb h)

end Sys2Proof.Machine
end

section
/-! SUPPORT for 10_state.md. What keeps a deck complete (R12): the transform steps, which read
every slot from another slot, one to one (R111), and the cards of a load (R82, R83). -/

namespace Sys2Proof.Machine

/-! ### Decks read through a map of positions -/

/-- A map that is one to one on the positions 1..28 moves the slots one to one. -/
theorem slot_map_injective (a : Card) {g : Nat → Nat} (hlo : ∀ q, 1 ≤ q → q ≤ 28 → 1 ≤ g q)
    (hhi : ∀ q, 1 ≤ q → q ≤ 28 → g q ≤ 28)
    (hg : ∀ q r, 1 ≤ q → q ≤ 28 → 1 ≤ r → r ≤ 28 → g q = g r → q = r) :
    Function.Injective fun j => slotOf a (g (posOf a j)) := by
  intro i j e
  have hi := posOf_pos a i
  have hi' := posOf_le a i
  have hj := posOf_pos a j
  have hj' := posOf_le a j
  have hpos : posOf a i = posOf a j := hg _ _ hi hi' hj hj'
    (slotOf_inj a _ _ (hlo _ hi hi') (hhi _ hi hi') (hlo _ hj hj') (hhi _ hj hj') e)
  rw [← slotOf_posOf a i, hpos, slotOf_posOf]

theorem DeckComplete.swapSlots {d : Deck} (h : DeckComplete d) (a b : Fin 28) :
    DeckComplete (swapSlots d a b) := by
  refine h.reindex (Equiv.swap b a) (Equiv.injective _) fun j => ?_
  simp only [swapSlots_getElem, Equiv.swap_apply_def]
  split_ifs <;> rfl

/-- The position from which TripleCut reads the card for the slot at position `q` (R105): the run of
slots from position `p2 + 1` on takes the cards before `p1` and then those after `p2`. -/
def tripleCutSource (p1 p2 q : Nat) : Nat :=
  if (q + 27 - p2) % 28 < p1 - 1 then (q + 27 - p2) % 28 + 1
  else if (q + 27 - p2) % 28 < p1 - 1 + (28 - p2) then p2 + 1 + ((q + 27 - p2) % 28 - (p1 - 1))
  else q

theorem tripleCutSource_injective {p1 p2 q r : Nat} (h1 : 1 ≤ p1) (h12 : p1 ≤ p2) (h2 : p2 ≤ 28)
    (hq : 1 ≤ q) (hq' : q ≤ 28) (hr : 1 ≤ r) (hr' : r ≤ 28)
    (e : tripleCutSource p1 p2 q = tripleCutSource p1 p2 r) : q = r := by
  unfold tripleCutSource at e
  split_ifs at e <;> omega

theorem tripleCutSource_pos {p1 p2 q : Nat} (hq : 1 ≤ q) : 1 ≤ tripleCutSource p1 p2 q := by
  unfold tripleCutSource
  split_ifs <;> omega

theorem tripleCutSource_le {p1 p2 q : Nat} (h2 : p2 ≤ 28) (hq' : q ≤ 28) :
    tripleCutSource p1 p2 q ≤ 28 := by
  unfold tripleCutSource
  split_ifs <;> omega

theorem tripleCutDeck_eq_cardAt (s : State) {p1 p2 : Nat} (h2 : p2 ≤ 28) (j : Fin 28) :
    (tripleCutDeck s p1 p2)[j] = s.cardAt (tripleCutSource p1 p2 (posOf s.anchor j)) := by
  have hoff : (j.val + 28 - (s.anchor.toNat + 29 - (28 - p2)) % 28) % 28 =
      (posOf s.anchor j + 27 - p2) % 28 := by
    unfold posOf; omega
  rw [tripleCutDeck_getElem, hoff, tripleCutSource]
  split_ifs
  · rfl
  · rfl
  · exact deck_eq_cardAt s j

theorem DeckComplete.tripleCut {s : State} (h : DeckComplete s.deck) {p1 p2 : Nat} (h1 : 1 ≤ p1)
    (h12 : p1 ≤ p2) (h2 : p2 ≤ 28) : DeckComplete (tripleCutDeck s p1 p2) :=
  h.reindex _
    (slot_map_injective s.anchor (fun _ hq _ => tripleCutSource_pos hq)
      (fun _ _ hq' => tripleCutSource_le h2 hq')
      fun _ _ hq hq' hr hr' => tripleCutSource_injective h1 h12 h2 hq hq' hr hr')
    (tripleCutDeck_eq_cardAt s h2)

/-- The position from which CountCut reads the card for the slot at position `q` (R107). -/
def countCutSource (n q : Nat) : Nat := if q = 28 then 28 else (q - 1 + n) % 27 + 1

theorem countCutSource_injective {n q r : Nat} (hq : 1 ≤ q) (hq' : q ≤ 28) (hr : 1 ≤ r)
    (hr' : r ≤ 28) (e : countCutSource n q = countCutSource n r) : q = r := by
  unfold countCutSource at e
  split_ifs at e <;> omega

theorem countCutSource_pos (n q : Nat) : 1 ≤ countCutSource n q := by
  unfold countCutSource
  split_ifs <;> omega

theorem countCutSource_le (n q : Nat) : countCutSource n q ≤ 28 := by
  unfold countCutSource
  split_ifs <;> omega

theorem countCutDeck_eq_cardAt (s : State) (j : Fin 28) :
    (countCutDeck s)[j] =
      s.cardAt (countCutSource (countOf (s.cardAt 28)) (posOf s.anchor j)) := by
  rw [countCutDeck_getElem, countCutSource]
  split_ifs with e
  · rw [deck_eq_cardAt, e]
  · rfl

theorem DeckComplete.countCut {s : State} (h : DeckComplete s.deck) :
    DeckComplete (countCutDeck s) :=
  h.reindex _
    (slot_map_injective s.anchor (fun _ _ _ => countCutSource_pos ..)
      (fun _ _ _ => countCutSource_le ..) fun _ _ => countCutSource_injective)
    (countCutDeck_eq_cardAt s)

/-! ### The transform steps on a complete deck -/

theorem DeckComplete.transform {m : Transform} {s t : State} (h : DeckComplete s.deck)
    (hm : m.run s = .ok t) : DeckComplete t.deck := by
  cases m with
  | ja =>
    obtain ⟨_, e⟩ | ⟨p, _, e⟩ := microJA_cases s
    · nomatch e.symm.trans hm
    · rw [← Except.ok.inj (e.symm.trans hm)]
      exact h.swapSlots ..
  | jb =>
    obtain ⟨_, e⟩ | ⟨p, _, e⟩ := microJB_cases s
    · nomatch e.symm.trans hm
    · rw [← Except.ok.inj (e.symm.trans hm)]
      exact (h.swapSlots ..).swapSlots ..
  | tc =>
    obtain ⟨_, e⟩ | ⟨_, _, e⟩ | ⟨pa, pb, ha, hb, e⟩ := microTC_cases s
    · nomatch e.symm.trans hm
    · nomatch e.symm.trans hm
    · rw [← Except.ok.inj (e.symm.trans hm)]
      obtain ⟨ha, ha', -, -⟩ := (s.findCard_eq_some _ _).mp ha
      obtain ⟨hb, hb', -, -⟩ := (s.findCard_eq_some _ _).mp hb
      exact h.tripleCut (le_min ha hb) min_le_max (max_le ha' hb')
  | cc =>
    rw [← Except.ok.inj ((Transform.run_cc s).symm.trans hm)]
    exact h.countCut

/-- On a complete deck no sentinel is missing (R111). -/
theorem DeckComplete.transform_ne_error {s : State} (h : DeckComplete s.deck) (m : Transform)
    (v : Card) : m.run s ≠ .error v := by
  intro hm
  obtain ⟨hv, hnone, -⟩ := Transform.run_error hm
  have hrange : 1 ≤ v.toNat ∧ v.toNat ≤ 28 := by
    obtain rfl | rfl := hv <;> decide
  obtain ⟨p, hp⟩ := h.findCard_isSome v hrange.1 hrange.2
  nomatch hnone.symm.trans hp

theorem DeckComplete.cardAt_range {s : State} (h : DeckComplete s.deck) (p : Nat) :
    1 ≤ (s.cardAt p).toNat ∧ (s.cardAt p).toNat ≤ 28 :=
  ((deckComplete_iff _).mp h).1 _ (Fin.isLt _)

/-! ### The cards of a load -/

theorem alreadyLoaded_eq_false {s : State} {v : Byte} :
    alreadyLoaded s v = false ↔
      ∀ j : Fin 28, j.val < s.ldcnt.toNat → s.deck[j] ≠ narrow v := by
  simp [alreadyLoaded]

/-- A new card in the next slot leaves the loaded slots distinct (R82). -/
theorem LoadedDistinct.set {d : Deck} {n : Nat} (h : LoadedDistinct d n) (hn : n < 28) {c : Card}
    (hlo : 1 ≤ c.toNat) (hhi : c.toNat ≤ 28) (hnew : ∀ j : Fin 28, j.val < n → d[j] ≠ c) :
    LoadedDistinct (d.set n c hn) (n + 1) := by
  obtain ⟨hrange, hinj⟩ := h
  have hread : ∀ j : Fin 28, (d.set n c hn)[j] = if n = j.val then c else d[j] := fun j => by
    rw [Fin.getElem_fin, Vector.getElem_set, Fin.getElem_fin]
  refine ⟨fun i hi => ?_, fun i j hi hj e => ?_⟩
  · rw [hread]
    split
    · exact ⟨hlo, hhi⟩
    · exact hrange i (by omega)
  · rw [hread, hread] at e
    split at e <;> split at e
    · exact Fin.ext (by omega)
    · exact absurd e.symm (hnew j (by omega))
    · exact absurd e (hnew i (by omega))
    · exact hinj i j (by omega) (by omega) e

theorem loadedDistinct_zero (d : Deck) : LoadedDistinct d 0 :=
  ⟨fun _ h => absurd h (Nat.not_lt_zero _), fun _ _ h => absurd h (Nat.not_lt_zero _)⟩

theorem narrow_card_range {v : Byte} (h : isCardOperand v = true) :
    1 ≤ (narrow v).toNat ∧ (narrow v).toNat ≤ 28 := by
  simp only [isCardOperand, inRange, decide_eq_true_eq] at h
  simp only [narrow, BitVec.toNat_setWidth]
  omega

/-- An accepted card leaves the slots of the load distinct. -/
theorem LoadedDistinct.store {s : State} {v : Byte} (h : LoadedDistinct s.deck s.ldcnt.toNat)
    (hlt : s.ldcnt.toNat < 28) (hv : isCardOperand v = true) (hnew : alreadyLoaded s v = false) :
    LoadedDistinct (s.deck.set s.ldcnt.toNat (narrow v) hlt) (s.ldcnt.toNat + 1) :=
  h.set hlt (narrow_card_range hv).1 (narrow_card_range hv).2 (alreadyLoaded_eq_false.mp hnew)

end Sys2Proof.Machine
end

section
/-! PROOFS of 10_state.md: the deck invariant (`State.Inv`), at reset and in every step. One lemma
per effect, then `step_keeps`. -/

namespace Sys2Proof.Machine

section

variable {s : State}

/-! ### What keeps `State.Inv` -/

theorem State.Inv.ports (h : s.Inv) {rsp : Option RspWord} (inputs : List PortEvent)
    (hr : rsp = none ∨ rsp = s.rsp) : { s with rsp := rsp, inputs := inputs }.Inv :=
  { h with toWf := h.toWf.ports inputs hr }

theorem State.Inv.respond (h : s.Inv) (hb : s.busy = false) (st : Status) (d : Byte) :
    (s.respond st d).Inv :=
  { h with toWf := h.toWf.respond hb st d }

theorem State.resetRegisters_inv (hr : s.rsp = none) : s.resetRegisters.Inv where
  toWf := State.resetRegisters_wf hr
  not_fatal := rfl
  deck_complete := nofun
  deck_count := nofun
  load_distinct := nofun
  key_le := Nat.zero_le _
  cand_le := Nat.zero_le _
  key_valid := nofun

theorem State.Inv.closeLoad (h : s.Inv) : { s with loading := false }.Inv :=
  { h with toWf := h.toWf.closeLoad, load_distinct := nofun }

theorem State.Inv.openLoad (h : s.Inv) (hb : s.busy = false) :
    { s with deckValid := false, keyValid := false, loading := true, ldcnt := 0#5 }.Inv :=
  { h with
    toWf := h.toWf.openLoad hb h.not_fatal
    deck_complete := nofun
    deck_count := nofun
    load_distinct := fun _ => loadedDistinct_zero s.deck
    key_valid := nofun }

theorem State.Inv.dropDeck (h : s.Inv) (hb : s.busy = false) :
    { s with deckValid := false, keyValid := false }.Inv :=
  { h with
    toWf := h.toWf.dropDeck hb
    deck_complete := nofun
    deck_count := nofun
    key_valid := nofun }

theorem State.Inv.not_deckValid_of_loading (h : s.Inv) (hl : s.loading = true) :
    s.deckValid = false := by
  cases hv : s.deckValid with
  | false => rfl
  | true => nomatch hl.symm.trans (h.valid_not_loading hv)

theorem State.Inv.storeCard (h : s.Inv) {v : Byte} (hlt : s.ldcnt.toNat < 28)
    (hl : s.loading = true) (hv : isCardOperand v = true) (hnew : alreadyLoaded s v = false)
    (hn : s.ldcnt ≠ 27#5) :
    { s with deck := s.deck.set s.ldcnt.toNat (narrow v) hlt, ldcnt := s.ldcnt + 1#5 }.Inv :=
  have hinvalid : s.deckValid = false := h.not_deckValid_of_loading hl
  { h with
    toWf := h.toWf.storeCard _ hlt hn
    deck_complete := fun hd => nomatch hinvalid.symm.trans hd
    deck_count := fun hd => nomatch hinvalid.symm.trans hd
    load_distinct := fun _ => toNat_succ_of_lt hlt ▸ (h.load_distinct hl).store hlt hv hnew }

/-- The 28th card makes the deck complete (R83). -/
theorem State.Inv.completeLoad (h : s.Inv) {v : Byte} (hb : s.busy = false)
    (hlt : s.ldcnt.toNat < 28) (hl : s.loading = true) (hv : isCardOperand v = true)
    (hnew : alreadyLoaded s v = false) (hn : s.ldcnt = 27#5) :
    { s with
      deck := s.deck.set s.ldcnt.toNat (narrow v) hlt, ldcnt := 28#5,
      loading := false, deckValid := true, anchor := 27#5 }.Inv :=
  have hcount : s.ldcnt.toNat + 1 = 28 := by rw [hn]; rfl
  have hall : LoadedDistinct (s.deck.set s.ldcnt.toNat (narrow v) hlt) 28 := by
    have stored := (h.load_distinct hl).store hlt hv hnew
    rwa [hcount] at stored
  { h with
    toWf := h.toWf.completeLoad _ hb h.not_fatal
    deck_complete := fun _ => (deckComplete_iff _).mpr hall
    deck_count := fun _ => rfl
    load_distinct := nofun
    key_valid := fun hk => ⟨rfl, (h.key_valid hk).2⟩ }

theorem State.Inv.transform (h : s.Inv) (hv : s.deckValid = true) {m : Transform} {t : State}
    (hm : m.run s = .ok t) : t.Inv := by
  have hwf : t.Wf := h.toWf.transform hm
  have hdeck : DeckComplete t.deck := (h.deck_complete hv).transform hm
  rw [Transform.run_frame hm] at hwf ⊢
  exact { h with
    toWf := hwf
    deck_complete := fun _ => hdeck
    load_distinct := fun hl => nomatch hl.symm.trans (h.valid_not_loading hv) }

theorem le_of_accepts {c : Card} (h : accepts c = true) : c.toNat ≤ 26 := by
  rw [accepts, decide_eq_true_eq] at h
  omega

/-- The extraction reads a card 1..28 and takes a key 1..26 (R21, R22, R129), as a command and in
the loop. -/
theorem State.Inv.extract (h : s.Inv) (hv : s.deckValid = true) {retry : Byte} {phase : Phase}
    (hwf : { microEX s with retry := retry, phase := phase }.Wf) :
    { microEX s with retry := retry, phase := phase }.Inv := by
  obtain ⟨hlo, hhi⟩ := (h.deck_complete hv).cardAt_range (countOf (s.cardAt 1) + 1)
  have hkey : (if accepts s.candidate then s.candidate else s.key).toNat ≤ 26 := by
    split
    case isTrue ha => exact le_of_accepts ha
    case isFalse => exact h.key_le
  rw [microEX_eq] at hwf ⊢
  exact { h with
    toWf := hwf
    key_le := hkey
    cand_le := hhi
    key_valid := fun (ha : accepts s.candidate = true) => by
      simp only [ha, if_true]
      exact ⟨hv, hlo, trivial⟩ }

theorem State.Inv.loopEntry (h : s.Inv) (ho : s.GatesOpen) (hr : s.rsp = none) {mode : Mode}
    {letter : Card} (hletter : mode ≠ .keyonly → 1 ≤ letter.toNat ∧ letter.toNat ≤ 26)
    (form : Form) : (s.loopEntry mode form letter).Inv :=
  { h with
    toWf := h.toWf.loopEntry ho hr hletter form
    key_valid := nofun }

theorem State.Inv.advance (h : s.Inv) (hb : s.busy = true) {p : Phase} (hp : p.running = true) :
    { s with phase := p }.Inv :=
  { h with toWf := h.toWf.advance hb hp }

/-! ### Commands, micro-steps and steps -/

theorem Effect.keeps_inv {i : Instr} {t : State} (e : Effect s i t) (hb : s.busy = false)
    (hr : s.rsp = none) (h : s.Inv) : t.Inv := by
  cases e with
  | responds => exact h.respond hb ..
  | resets => exact (State.resetRegisters_inv hr).respond rfl ..
  | closesLoad => exact h.closeLoad.respond hb ..
  | opensLoad => exact (h.openLoad hb).respond hb ..
  | dropsDeck => exact (h.dropDeck hb).respond hb ..
  | storesCard _ _ hlt _ hl hv hnew hn => exact (h.storeCard hlt hl hv hnew hn).respond hb ..
  | completesLoad _ _ hlt _ hl hv hnew hn =>
    exact (h.completeLoad hb hlt hl hv hnew hn).respond hb ..
  | transforms m t ho hm =>
    have hb' : t.busy = false := by rw [Transform.run_frame hm]; exact hb
    exact (h.transform ho.2.2 hm).respond hb' ..
  | corrupts m v ho hm => exact absurd hm ((h.deck_complete ho.2.2).transform_ne_error m v)
  | extracts _ _ ho =>
    have hb' : (microEX s).busy = false := by rw [State.busy, microEX_phase]; exact hb
    have extracted : (microEX s).Inv := h.extract ho.2.2 (h.toWf.extract hb)
    exact extracted.respond hb' ..
  | entersLoop _ _ form _ ho _ hletter => exact h.loopEntry ho hr hletter form

theorem MicroEffect.keeps_inv {t : State} (e : MicroEffect s t) (hb : s.busy = true)
    (h : s.Inv) : t.Inv := by
  have hv : s.deckValid = true := (h.busy_loop hb).1
  cases e with
  | transforms m t _ hm =>
    have hb' : t.busy = true := by rw [Transform.run_frame hm]; exact hb
    exact (h.transform hv hm).advance hb' m.running_nextPhase
  | corrupts m v _ hm => exact absurd hm ((h.deck_complete hv).transform_ne_error m v)
  | completes =>
    have completed : { microEX s with phase := .idle }.Inv := h.extract hv (h.toWf.complete hb)
    exact completed.respond rfl ..
  | retries _ ha => exact h.extract hv (h.toWf.retry hb ha _)

end

theorem State.hardReset_inv (s : State) : s.hardReset.Inv :=
  State.resetRegisters_inv (s := s.hardReset) rfl

/-- Settles O54: each effect of a command, of a micro-step and of the ports keeps the deck
invariant, a missing sentinel being none of them on a complete deck. -/
theorem stepKeepsTheDeckInvariant : Obligations.StepKeepsTheDeckInvariant :=
  fun s _ => step_keeps s.hardReset_inv
    (fun _ inputs hrsp h => h.ports inputs hrsp)
    (fun hb hr e h => e.keeps_inv hb hr h)
    (fun hb e h => e.keeps_inv hb h)

/-- Settles O52: the reset state is its own register reset. -/
theorem resetMeetsTheInvariant : Obligations.ResetMeetsTheInvariant :=
  State.resetRegisters_inv (s := State.reset) rfl

end Sys2Proof.Machine
end

section
/-! PROOFS of 10_state.md: which register a command writes, how DECK_VALID and FATAL change in a
step, and what RDR reads. -/

namespace Sys2Proof.Machine

/-! ### Frames of the commands -/

/-- Settles O48: each effect names the registers it writes. -/
theorem commandsWriteOnlyTheirRegisters : Obligations.CommandsWriteOnlyTheirRegisters := by
  intro i s t h
  cases exec_effect h with
  | responds | resets | closesLoad | opensLoad | dropsDeck | storesCard | completesLoad
  | extracts => simp
  | transforms m t _ hm =>
    have hanchor := Transform.run_anchor hm
    rw [Transform.run_frame hm]
    cases m with
    | ja | jb | cc => simpa [Transform.instr] using hanchor
    | tc => simp [Transform.instr]
  | corrupts m v _ hm =>
    have hcc : m ≠ .cc := (Transform.run_error hm).2.2
    cases m with
    | ja | jb | tc => simp [Transform.instr]
    | cc => exact absurd rfl hcc
  | entersLoop _ _ _ _ _ hi =>
    obtain rfl | ⟨b, rfl | rfl | rfl | rfl⟩ := hi <;> simp

/-! ### The words that decode to a command (R61, R67) -/

theorem opcodeField_append_operandField (w : CmdWord) : opcodeField w ++ operandField w = w :=
  BitVec.extractLsb'_append_extractLsb' (w := 8) (len := 8)

theorem zeroForm_eq_ok {i j : Instr} {w : CmdWord} (h : zeroForm i w = .ok j) :
    j = i ∧ operandField w = 0#8 := by
  unfold zeroForm at h
  split at h
  case isTrue h0 => exact ⟨(Except.ok.inj h).symm, h0⟩
  case isFalse => nomatch h

/-- A decoded word holds the opcode and the operand of its command. -/
theorem fields_of_decode {w : CmdWord} {i : Instr} (h : decode w = .ok i) :
    opcodeField w = i.opcode ∧ operandField w = i.operand := by
  unfold decode at h
  split at h
  case h_19 => nomatch h
  case h_1 hop | h_2 hop | h_4 hop | h_6 hop | h_7 hop | h_8 hop | h_9 hop | h_10 hop | h_11 hop =>
    obtain ⟨rfl, h0⟩ := zeroForm_eq_ok h
    exact ⟨hop, h0⟩
  all_goals
    obtain rfl := Except.ok.inj h
    exact ⟨‹_›, rfl⟩

theorem encode_of_decode {w : CmdWord} {i : Instr} (h : decode w = .ok i) : encode i = w := by
  obtain ⟨hop, hoperand⟩ := fields_of_decode h
  rw [encode, ← hop, ← hoperand, opcodeField_append_operandField]

/-! ### DECK_VALID (R17) -/

theorem Effect.of_deckValid_set {s t : State} {i : Instr} (e : Effect s i t)
    (hs : s.deckValid = false) (ht : t.deckValid = true) :
    ∃ v, i = .card v ∧ s.loading = true ∧ s.ldcnt = 27#5 ∧ t.ldcnt = 28#5 := by
  cases e with
  | completesLoad v _ _ _ hl _ _ hn => exact ⟨v, rfl, hl, hn, rfl⟩
  | transforms m t ho | extracts _ _ ho | entersLoop _ _ _ _ ho =>
    nomatch hs.symm.trans ho.2.2
  | resets | opensLoad | dropsDeck | corrupts => nomatch ht
  | responds | closesLoad | storesCard => nomatch hs.symm.trans ht

/-- No micro-step sets DECK_VALID. -/
theorem MicroEffect.deckValid {s t : State} (e : MicroEffect s t) (ht : t.deckValid = true) :
    s.deckValid = true := by
  cases e with
  | transforms m t _ hm => rw [Transform.run_frame hm] at ht; exact ht
  | corrupts => nomatch ht
  | completes | retries => simpa using ht

/-- Settles O20: of all effects only the 28th card sets DECK_VALID. -/
theorem onlyThe28thCardMakesADeckValid : Obligations.OnlyThe28thCardMakesADeckValid := by
  intro s t h hs ht
  cases step_effect h with
  | resets => nomatch ht
  | runs _ _ _ e => simpa [hs] using e.deckValid ht
  | passes | rejects => nomatch hs.symm.trans ht
  | executes w i _ _ ho hd e =>
    obtain ⟨v, rfl, hl, hn, hn'⟩ := e.of_deckValid_set hs ht
    obtain ⟨rest, hin⟩ := State.offered_eq_some.mp ho
    exact ⟨v, rest, encode_of_decode hd ▸ hin, hl, hn, hn'⟩

/-! ### FATAL (R15, R165) -/

/-- What the state after the Corrupt fault shows. -/
def ReportsCorrupt (t : State) : Prop :=
  (t.rsp = some 0xE01B#16 ∨ t.rsp = some 0xE01C#16) ∧ t.lastErr = 0xE#4 ∧ t.deckValid = false ∧
    t.phase = .fault

theorem Transform.raiseCorrupt_reports {m : Transform} {s : State} {v : Card}
    (h : m.run s = .error v) : ReportsCorrupt (s.raiseCorrupt v) := by
  refine ⟨?_, rfl, rfl, rfl⟩
  obtain ⟨rfl | rfl, -, -⟩ := Transform.run_error h
  · exact .inl rfl
  · exact .inr rfl

theorem Effect.reportsCorrupt {s t : State} {i : Instr} (e : Effect s i t)
    (hs : s.fatal = false) (ht : t.fatal = true) : ReportsCorrupt t := by
  cases e with
  | corrupts m v _ hm => exact Transform.raiseCorrupt_reports hm
  | resets => nomatch ht
  | transforms m t _ hm =>
    rw [Transform.run_frame hm] at ht
    nomatch hs.symm.trans ht
  | extracts =>
    rw [State.respond_fatal, microEX_fatal] at ht
    nomatch hs.symm.trans ht
  | responds | closesLoad | opensLoad | dropsDeck | storesCard | completesLoad | entersLoop =>
    nomatch hs.symm.trans ht

theorem MicroEffect.reportsCorrupt {s t : State} (e : MicroEffect s t) (hs : s.fatal = false)
    (ht : t.fatal = true) : ReportsCorrupt t := by
  cases e with
  | corrupts m v _ hm => exact Transform.raiseCorrupt_reports hm
  | transforms m t _ hm =>
    rw [Transform.run_frame hm] at ht
    nomatch hs.symm.trans ht
  | completes | retries => simp [hs] at ht

/-- While FATAL is set every command but SRST keeps it: the gates let no effect through. -/
theorem Effect.of_fatal_cleared {s t : State} {i : Instr} (e : Effect s i t)
    (hs : s.fatal = true) (ht : t.fatal = false) : i = .srst := by
  cases e with
  | resets => rfl
  | responds => nomatch ht.symm.trans hs
  | transforms _ _ ho | extracts _ _ ho | entersLoop _ _ _ _ ho => nomatch hs.symm.trans ho.1
  | closesLoad _ _ _ hf | dropsDeck _ _ _ hf => nomatch hs.symm.trans hf
  | opensLoad hf | storesCard _ _ _ hf | completesLoad _ _ _ hf => nomatch hs.symm.trans hf
  | corrupts => nomatch ht

/-- No micro-step clears FATAL. -/
theorem MicroEffect.fatal {s t : State} (e : MicroEffect s t) (hs : s.fatal = true) :
    t.fatal = true := by
  cases e with
  | transforms m t _ hm => rw [Transform.run_frame hm]; exact hs
  | corrupts => rfl
  | completes | retries => simpa using hs

/-- Settles O51: of all effects only a missing sentinel sets FATAL, only reset and SRST clear it. -/
theorem fatalIsSetByCorruptAndClearedByReset :
    Obligations.FatalIsSetByCorruptAndClearedByReset := by
  intro s t h
  cases step_effect h with
  | resets hr => exact ⟨fun _ => nofun, fun _ _ => .inl hr⟩
  | runs _ _ _ e =>
    refine ⟨fun hs => e.reportsCorrupt (by simpa using hs), fun hs ht => ?_⟩
    nomatch ht.symm.trans (e.fatal (by simpa using hs))
  | passes | rejects =>
    exact ⟨fun hs ht => (nomatch hs.symm.trans ht), fun hs ht => (nomatch hs.symm.trans ht)⟩
  | executes w i _ _ ho hd e =>
    refine ⟨e.reportsCorrupt, fun hs ht => .inr ?_⟩
    obtain rfl := e.of_fatal_cleared hs ht
    rw [ho, ← encode_of_decode hd]
    rfl

/-! ### RDR (R25, R26, R152) -/

theorem State.respond_normal (s : State) {st : Status} (h : st.isError = false) (d : Byte) :
    s.respond st d = { s with rsp := some (rspWord st d) } := by
  rw [State.respond, nextLastErr_normal h]

theorem State.respond_error (s : State) {st : Status} (h : st.isError = true) (d : Byte) :
    s.respond st d = { s with lastErr := st.code, rsp := some (rspWord st d) } := by
  rw [State.respond, nextLastErr_error h]

/-- STATUS by the weights of its bits (R25). -/
theorem State.statusByte_eq (s : State) : s.statusByte = BitVec.ofNat 8
    (128 * s.fatal.toNat + 64 * s.loading.toNat + 32 * s.deckValid.toNat +
      16 * s.keyValid.toNat + s.lastErr.toNat) := by
  unfold State.statusByte
  generalize s.fatal = f, s.loading = l, s.deckValid = d, s.keyValid = k, s.lastErr = e
  revert f l d k e
  decide

theorem exec_rdr_of_some {s : State} {r v : Byte} (h : readRegister s r.toNat = some v) :
    exec (.rdr r) s = .next { s with rsp := some (rspWord .ok v) } := by
  rw [← s.respond_normal rfl]
  simp only [exec, execRdr, h, answer]

theorem exec_rdr_of_none {s : State} {r : Byte} (h : readRegister s r.toNat = none) :
    exec (.rdr r) s = .next { s with lastErr := 0x9#4, rsp := some 0x9000#16 } := by
  have refused : s.respond .errOperand 0x00#8 =
      { s with lastErr := 0x9#4, rsp := some 0x9000#16 } := s.respond_error rfl _
  rw [← refused]
  simp only [exec, execRdr, h, answer]

theorem readRegister_eq_none (s : State) {r : Nat} (h : 6 ≤ r) : readRegister s r = none := by
  unfold readRegister
  split
  case h_7 => rfl
  all_goals omega

/-- Settles O13: RDR answers what `readRegister` names, the composite STATUS for register 0. -/
theorem rdrReturnsTheNamedRegister : Obligations.RdrReturnsTheNamedRegister := by
  intro s
  refine ⟨?status, exec_rdr_of_some rfl, exec_rdr_of_some rfl, exec_rdr_of_some rfl,
    exec_rdr_of_some rfl, exec_rdr_of_some rfl, fun r hr => ?_⟩
  case status =>
    rw [← s.statusByte_eq]
    exact exec_rdr_of_some rfl
  · exact exec_rdr_of_none (readRegister_eq_none s hr)

end Sys2Proof.Machine
end

section
/-! PROOFS of 10_state.md: the cycles of the key loop and the RETRY counter (R23, R126, R188). -/

namespace Sys2Proof.Machine

/-- The host does nothing more, and the loop is in phase `p` with RETRY at `r` or has ended in the
Corrupt fault. -/
def LoopAt (p : Phase) (r : Byte) (s : State) : Prop :=
  s.inputs = [] ∧ ((s.phase = p ∧ s.retry = r) ∨ s.phase = .fault)

theorem step_running {s : State} (hi : s.inputs = []) (hb : s.busy = true) :
    step s = .next (microStep s) := by
  have hrst : s.rst = false := by simp [State.rst, hi]
  have hpass : s.passTime = s := by simp [State.passTime, hi]
  simp [step, hrst, hb, hpass]

theorem step_fault {s : State} (hi : s.inputs = []) (hp : s.phase = .fault) : step s = .next s :=
  step_rest hi (by rw [State.busy, hp]; rfl)

/-- A transform step takes one micro-step and leaves RETRY (R122, R128). -/
theorem LoopAt.step_transform (m : Transform) {r : Byte} {s : State} (h : LoopAt m.phase r s) :
    ∃ t, step s = .next t ∧ LoopAt m.nextPhase r t := by
  obtain ⟨hi, ⟨hp, hr⟩ | hp⟩ := h
  · have hb : s.busy = true := by rw [State.busy, hp, m.running_phase]
    refine ⟨_, step_running hi hb, ?_⟩
    rw [microStep_transform m hp]
    cases hm : m.run s with
    | error v => exact ⟨hi, .inr rfl⟩
    | ok t =>
      rw [Transform.run_frame hm]
      exact ⟨hi, .inl ⟨rfl, hr⟩⟩
  · exact ⟨s, step_fault hi hp, hi, .inr hp⟩

/-- The extraction takes one micro-step and counts a discarded candidate, or the loop is over with
RETRY as it was (R123). -/
theorem LoopAt.step_extract {r : Byte} {s : State} (h : LoopAt .ex r s) :
    ∃ t, step s = .next t ∧
      (LoopAt .ja (retrySucc r) t ∨ t.inputs = [] ∧ t.phase = .idle ∧ t.retry = r) := by
  obtain ⟨hi, ⟨hp, rfl⟩ | hp⟩ := h
  · have hb : s.busy = true := by rw [State.busy, hp]; rfl
    refine ⟨_, step_running hi hb, ?_⟩
    rw [microStep_extract hp, extractStep]
    cases accepts s.candidate with
    | true => exact .inr ⟨by simpa using hi, rfl, by simp⟩
    | false => exact .inl ⟨by simpa using hi, .inl ⟨rfl, by simp⟩⟩
  · exact ⟨s, step_fault hi hp, .inl ⟨hi, .inr hp⟩⟩

theorem steps_succ_of_next {s t : State} (h : step s = .next t) (k : Nat) :
    steps (k + 1) s = steps k t := by
  rw [steps, h]

theorem steps_add_of_next {m : Nat} {s t : State} (h : steps m s = .next t) (n : Nat) :
    steps (m + n) s = steps n t := by
  rw [steps_add, h]

/-- A cycle takes five micro-steps, one for each phase (R188). -/
theorem LoopAt.cycle {r : Byte} {s : State} (h : LoopAt .ja r s) :
    ∃ t, steps 5 s = .next t ∧
      (LoopAt .ja (retrySucc r) t ∨ t.inputs = [] ∧ t.phase = .idle ∧ t.retry = r) := by
  obtain ⟨s1, e1, h⟩ := h.step_transform .ja
  obtain ⟨s2, e2, h⟩ := h.step_transform .jb
  obtain ⟨s3, e3, h⟩ := h.step_transform .tc
  obtain ⟨s4, e4, h⟩ := h.step_transform .cc
  obtain ⟨t, e5, h⟩ := h.step_extract
  refine ⟨t, ?_, h⟩
  rw [steps_succ_of_next e1, steps_succ_of_next e2, steps_succ_of_next e3, steps_succ_of_next e4,
    steps_succ_of_next e5, steps]

theorem retrySucc_toNat (r : Byte) : (retrySucc r).toNat = min 255 (r.toNat + 1) := by
  unfold retrySucc Config.retryMax
  split <;> bv_omega

/-- After `n` cycles the loop has ended, or `n` candidates have been discarded. -/
theorem cycles {s : State} (hp : s.phase = .ja) (hi : s.inputs = []) (hr : s.retry = 0#8)
    (n : Nat) : ∃ t, steps (5 * n) s = .next t ∧
      ((∃ r : Byte, r.toNat = min 255 n ∧ LoopAt .ja r t) ∨ t.inputs = [] ∧ t.busy = false) := by
  induction n with
  | zero => exact ⟨s, rfl, .inl ⟨0#8, rfl, hi, .inl ⟨hp, hr⟩⟩⟩
  | succ n ih =>
    obtain ⟨u, e, ⟨r, hn, h⟩ | ⟨hi, hb⟩⟩ := ih
    · obtain ⟨t, e', h⟩ := h.cycle
      refine ⟨t, by rw [Nat.mul_succ, steps_add_of_next e, e'], ?_⟩
      obtain h | ⟨hi, hp, -⟩ := h
      · exact .inl ⟨_, by rw [retrySucc_toNat]; omega, h⟩
      · exact .inr ⟨hi, by rw [State.busy, hp]; rfl⟩
    · exact ⟨u, by rw [Nat.mul_succ, steps_add_of_next e, steps_rest hi hb], .inr ⟨hi, hb⟩⟩

/-- A loop that is still busy after `n` cycles is at the start of one. -/
theorem loop_at_of_busy {n : Nat} {s t : State} (hp : s.phase = .ja) (hi : s.inputs = [])
    (hr : s.retry = 0#8) (h : steps (5 * n) s = .next t) (hb : t.busy = true) :
    t.inputs = [] ∧ t.phase = .ja ∧ t.retry.toNat = min 255 n := by
  obtain ⟨t', e, hend⟩ := cycles hp hi hr n
  obtain rfl := Host.Outcome.next.inj (h.symm.trans e)
  obtain ⟨r, hn, hi', ⟨hp', rfl⟩ | hp'⟩ | ⟨-, hb'⟩ := hend
  · exact ⟨hi', hp', hn⟩
  · rw [State.busy, hp'] at hb; nomatch hb
  · nomatch hb.symm.trans hb'

/-- Settles O39: `cycles` counts the cycles that went on, `LoopAt.cycle` says that the last one
leaves RETRY. -/
theorem retryCountsTheDiscardedCandidates : Obligations.RetryCountsTheDiscardedCandidates := by
  intro n s t hp hi hr
  refine ⟨fun h hb => (loop_at_of_busy hp hi hr h hb).2, fun u hu hb h hidle => ?_⟩
  obtain ⟨hi', hp', hn⟩ := loop_at_of_busy hp hi hr hu hb
  obtain ⟨t', e, hend⟩ := LoopAt.cycle (s := u) ⟨hi', .inl ⟨hp', rfl⟩⟩
  rw [Nat.mul_succ, steps_add_of_next hu] at h
  obtain rfl := Host.Outcome.next.inj (h.symm.trans e)
  obtain ⟨-, ⟨hja, -⟩ | hfault⟩ | ⟨-, -, hretry⟩ := hend
  · nomatch hidle.symm.trans hja
  · nomatch hidle.symm.trans hfault
  · rw [hretry, hn]

end Sys2Proof.Machine
end

section
/-! SUPPORT for 20_memory.md. The micro-operations read the deck through its linear view: states with
equal views find the same sentinels, extract the same candidate, and get equal views again (R45). -/

namespace Sys2Proof.Machine

variable {s s' : State}

theorem cardAt_congr (h : s.linear = s'.linear) {p : Nat} (hp : 1 ≤ p) (hp' : p ≤ 28) :
    s.cardAt p = s'.cardAt p :=
  (State.linear_eq_iff s s').mp h p hp hp'

theorem countOf_le (v : Card) : countOf v ≤ 27 := Nat.min_le_right ..

/-- The candidate of an extraction is read from the linear view (R109). -/
theorem State.candidate_congr (h : s.linear = s'.linear) : s.candidate = s'.candidate := by
  have hc : countOf (s'.cardAt 1) ≤ 27 := countOf_le _
  rw [State.candidate, State.candidate, cardAt_congr h le_rfl (by decide)]
  exact cardAt_congr h (Nat.le_add_left ..) (by omega)

/-! ### JokerA and JokerB: cards at two positions are exchanged -/

/-- The cards at the positions `p` and `q` change places. -/
def State.exchange (s : State) (p q : Nat) : State :=
  { s with deck := swapSlots s.deck (slotOf s.anchor p) (slotOf s.anchor q) }

/-- The position after `p` in the cyclic order. -/
def succPos (p : Nat) : Nat := p % 28 + 1

theorem succPos_pos (p : Nat) : 1 ≤ succPos p := Nat.le_add_left ..

theorem succPos_le (p : Nat) : succPos p ≤ 28 := Nat.mod_lt p (by decide)

theorem cardAt_exchange (s : State) {p q r : Nat} (hp : 1 ≤ p) (hp' : p ≤ 28) (hq : 1 ≤ q)
    (hq' : q ≤ 28) (hr : 1 ≤ r) (hr' : r ≤ 28) :
    (s.exchange p q).cardAt r =
      if r = q then s.cardAt p else if r = p then s.cardAt q else s.cardAt r := by
  have hslot : ∀ {a}, 1 ≤ a → a ≤ 28 → (slotOf s.anchor r = slotOf s.anchor a ↔ r = a) :=
    fun ha ha' => ⟨slotOf_inj _ _ _ hr hr' ha ha', congrArg _⟩
  have hread := swapSlots_getElem s.deck (slotOf s.anchor p) (slotOf s.anchor q) (slotOf s.anchor r)
  simp only [hslot hp hp', hslot hq hq'] at hread
  exact hread

theorem linear_exchange (h : s.linear = s'.linear) {p q : Nat} (hp : 1 ≤ p) (hp' : p ≤ 28)
    (hq : 1 ≤ q) (hq' : q ≤ 28) : (s.exchange p q).linear = (s'.exchange p q).linear := by
  rw [State.linear_eq_iff]
  intro r hr hr'
  rw [cardAt_exchange s hp hp' hq hq' hr hr', cardAt_exchange s' hp hp' hq hq' hr hr',
    cardAt_congr h hp hp', cardAt_congr h hq hq', cardAt_congr h hr hr']

theorem microJA_of_none (h : s.findCard 27#5 = none) : microJA s = .error 27#5 := by
  simp only [microJA, Config.jokerA, h]

theorem microJA_of_some {p : Nat} (h : s.findCard 27#5 = some p) :
    microJA s = .ok (s.exchange p (succPos p)) := by
  simp only [microJA, Config.jokerA, h, succSlot_slotOf, State.exchange, succPos]

theorem microJB_of_none (h : s.findCard 28#5 = none) : microJB s = .error 28#5 := by
  simp only [microJB, Config.jokerB, h]

theorem microJB_of_some {p : Nat} (h : s.findCard 28#5 = some p) : microJB s =
    .ok ((s.exchange p (succPos p)).exchange (succPos p) (succPos (succPos p))) := by
  simp only [microJB, Config.jokerB, h, succSlot_slotOf, State.exchange, succPos]

/-! ### TripleCut and CountCut: the deck is read through a map of positions -/

theorem microTC_of_none (h : s.findCard 27#5 = none) : microTC s = .error 27#5 := by
  simp only [microTC, Config.jokerA, h]

theorem microTC_of_some_none {pa : Nat} (ha : s.findCard 27#5 = some pa)
    (hb : s.findCard 28#5 = none) : microTC s = .error 28#5 := by
  simp only [microTC, Config.jokerA, Config.jokerB, ha, hb]

/-- The three parts of the deck around the positions `p1` and `p2` change places (R105). -/
def State.tripleCut (s : State) (p1 p2 : Nat) : State :=
  { s with deck := tripleCutDeck s p1 p2, anchor := tripleCutAnchor s.anchor p1 p2 }

theorem microTC_of_some {pa pb : Nat} (ha : s.findCard 27#5 = some pa)
    (hb : s.findCard 28#5 = some pb) :
    microTC s = .ok (s.tripleCut (min pa pb) (max pa pb)) := by
  simp only [microTC, Config.jokerA, Config.jokerB, ha, hb, State.tripleCut]

/-- TripleCut moves the anchor by `(p1 - 1) - (28 - p2)` slots, whatever slot it is (R105). -/
theorem posOf_slotOf_tripleCutAnchor (a : Card) {p1 p2 : Nat} (h1 : 1 ≤ p1) (h2 : p2 ≤ 28)
    (q : Nat) : posOf a (slotOf (tripleCutAnchor a p1 p2) q) = succPos (p1 + p2 + q + 26) := by
  have hanchor : (tripleCutAnchor a p1 p2).toNat = (a.toNat + (p1 - 1) + 28 - (28 - p2)) % 28 := by
    rw [tripleCutAnchor, BitVec.toNat_ofNat]
    omega
  rw [posOf, slotOf_val, hanchor, succPos]
  omega

theorem cardAt_tripleCut (s : State) {p1 p2 : Nat} (h1 : 1 ≤ p1) (h2 : p2 ≤ 28) (q : Nat) :
    (s.tripleCut p1 p2).cardAt q =
      s.cardAt (tripleCutSource p1 p2 (succPos (p1 + p2 + q + 26))) := by
  rw [← posOf_slotOf_tripleCutAnchor s.anchor h1 h2 q, ← tripleCutDeck_eq_cardAt s h2]
  rfl

theorem linear_tripleCut (h : s.linear = s'.linear) {p1 p2 : Nat} (h1 : 1 ≤ p1) (h2 : p2 ≤ 28) :
    (s.tripleCut p1 p2).linear = (s'.tripleCut p1 p2).linear := by
  rw [State.linear_eq_iff]
  intro q _ _
  rw [cardAt_tripleCut s h1 h2, cardAt_tripleCut s' h1 h2]
  exact cardAt_congr h (tripleCutSource_pos (succPos_pos _)) (tripleCutSource_le h2 (succPos_le _))

theorem microCC_deck (s : State) : (microCC s).deck = countCutDeck s := rfl

theorem cardAt_microCC (s : State) {q : Nat} (hq : 1 ≤ q) (hq' : q ≤ 28) :
    (microCC s).cardAt q = s.cardAt (countCutSource (countOf (s.cardAt 28)) q) := by
  have hread := countCutDeck_eq_cardAt s (slotOf s.anchor q)
  rw [posOf_slotOf s.anchor q hq hq'] at hread
  rw [← hread]
  simp only [State.cardAt, microCC_deck, microCC_anchor]

theorem linear_microCC (h : s.linear = s'.linear) :
    (microCC s).linear = (microCC s').linear := by
  rw [State.linear_eq_iff]
  intro q hq hq'
  rw [cardAt_microCC s hq hq', cardAt_microCC s' hq hq', cardAt_congr h (by decide) le_rfl]
  exact cardAt_congr h (countCutSource_pos ..) (countCutSource_le ..)

/-! ### The transform steps -/

/-- Two runs of a transform step miss the same sentinel, or both succeed with equal views. -/
inductive SameRun : Except Card State → Except Card State → Prop where
  | error (v : Card) : SameRun (.error v) (.error v)
  | ok (t t' : State) (h : t.linear = t'.linear) : SameRun (.ok t) (.ok t')

theorem microJA_sameRun (h : s.linear = s'.linear) : SameRun (microJA s) (microJA s') := by
  have hf := State.findCard_congr s s' h 27#5
  cases e : s.findCard 27#5 with
  | none =>
    rw [microJA_of_none e, microJA_of_none (hf ▸ e)]
    exact .error _
  | some p =>
    obtain ⟨hp, hp', -, -⟩ := (s.findCard_eq_some _ p).mp e
    rw [microJA_of_some e, microJA_of_some (hf ▸ e)]
    exact .ok _ _ (linear_exchange h hp hp' (succPos_pos p) (succPos_le p))

theorem microJB_sameRun (h : s.linear = s'.linear) : SameRun (microJB s) (microJB s') := by
  have hf := State.findCard_congr s s' h 28#5
  cases e : s.findCard 28#5 with
  | none =>
    rw [microJB_of_none e, microJB_of_none (hf ▸ e)]
    exact .error _
  | some p =>
    obtain ⟨hp, hp', -, -⟩ := (s.findCard_eq_some _ p).mp e
    have first := linear_exchange h hp hp' (succPos_pos p) (succPos_le p)
    rw [microJB_of_some e, microJB_of_some (hf ▸ e)]
    exact .ok _ _
      (linear_exchange first (succPos_pos _) (succPos_le _) (succPos_pos _) (succPos_le _))

theorem microTC_sameRun (h : s.linear = s'.linear) : SameRun (microTC s) (microTC s') := by
  have hfa := State.findCard_congr s s' h 27#5
  have hfb := State.findCard_congr s s' h 28#5
  cases ha : s.findCard 27#5 with
  | none =>
    rw [microTC_of_none ha, microTC_of_none (hfa ▸ ha)]
    exact .error _
  | some pa =>
    cases hb : s.findCard 28#5 with
    | none =>
      rw [microTC_of_some_none ha hb, microTC_of_some_none (hfa ▸ ha) (hfb ▸ hb)]
      exact .error _
    | some pb =>
      rw [microTC_of_some ha hb, microTC_of_some (hfa ▸ ha) (hfb ▸ hb)]
      obtain ⟨hpa, hpa', -, -⟩ := (s.findCard_eq_some _ pa).mp ha
      obtain ⟨hpb, hpb', -, -⟩ := (s.findCard_eq_some _ pb).mp hb
      exact .ok _ _ (linear_tripleCut h (le_min hpa hpb) (max_le hpa' hpb'))

/-- Every transform step is a function of the linear view (R45). -/
theorem Transform.run_sameRun (m : Transform) (h : s.linear = s'.linear) :
    SameRun (m.run s) (m.run s') := by
  cases m with
  | ja => exact microJA_sameRun h
  | jb => exact microJB_sameRun h
  | tc => exact microTC_sameRun h
  | cc => exact .ok _ _ (linear_microCC h)

end Sys2Proof.Machine
end

section
/-! PROOFS of 20_memory.md: the physical layout of the deck is invisible (R45). A relation between two
runs is carried through the updates of the state, the gates of R163, the commands and the micro-steps;
where the deck is read, it is read through its linear view. -/

namespace Sys2Proof.Machine

section

variable {s s' : State}

/-! ### What keeps the view -/

theorem SameView.exists_relayout (h : SameView s s') :
    ∃ d a, s' = { s with deck := d, anchor := a } := ⟨_, _, h.registers⟩

/-- The update neither reads nor writes DECK and ANCHOR. -/
def LayoutBlind (f : State → State) : Prop :=
  ∀ (s : State) (d : Deck) (a : Card),
    f { s with deck := d, anchor := a } = { f s with deck := d, anchor := a }

/-- An update that is blind to the layout keeps the view, if it sets neither DECK_VALID nor LOADING
and leaves LDCNT alone during a load. -/
theorem SameView.update (h : SameView s s') {f : State → State} (hf : LayoutBlind f)
    (hv : (f s).deckValid = true → s.deckValid = true)
    (hl : (f s).loading = true → s.loading = true ∧ (f s).ldcnt = s.ldcnt) :
    SameView (f s) (f s') := by
  have hs : f s = { f s with deck := s.deck, anchor := s.anchor } := hf s s.deck s.anchor
  obtain ⟨d, a, rfl⟩ := h.exists_relayout
  rw [hf s d a]
  refine ⟨rfl, fun hv' => ?_, fun hl' j hj => ?_⟩
  · rw [hs]
    exact h.view (hv hv')
  · obtain ⟨hl', hn⟩ := hl hl'
    rw [hs]
    exact h.loaded hl' j (hn ▸ hj)

theorem SameView.respond (h : SameView s s') (st : Status) (d : Byte) :
    SameView (s.respond st d) (s'.respond st d) :=
  h.update (f := (·.respond st d)) (fun _ _ _ => rfl) id (⟨·, rfl⟩)

theorem SameView.closeLoad (h : SameView s s') :
    SameView { s with loading := false } { s' with loading := false } :=
  h.update (f := fun u => { u with loading := false }) (fun _ _ _ => rfl) id nofun

theorem SameView.dropDeck (h : SameView s s') :
    SameView { s with deckValid := false, keyValid := false }
      { s' with deckValid := false, keyValid := false } :=
  h.update (f := fun u => { u with deckValid := false, keyValid := false })
    (fun _ _ _ => rfl) nofun (⟨·, rfl⟩)

theorem SameView.setPhase (h : SameView s s') (p : Phase) :
    SameView { s with phase := p } { s' with phase := p } :=
  h.update (f := fun u => { u with phase := p }) (fun _ _ _ => rfl) id (⟨·, rfl⟩)

theorem SameView.loopEntry (h : SameView s s') (mode : Mode) (form : Form) (letter : Card) :
    SameView (s.loopEntry mode form letter) (s'.loopEntry mode form letter) :=
  h.update (f := (·.loopEntry mode form letter)) (fun _ _ _ => rfl) id (⟨·, rfl⟩)

theorem SameView.raiseCorrupt (h : SameView s s') (v : Card) :
    SameView (s.raiseCorrupt v) (s'.raiseCorrupt v) :=
  h.update (f := (·.raiseCorrupt v)) (fun _ _ _ => rfl) nofun (⟨·, rfl⟩)

theorem SameView.dropInput (h : SameView s s') : SameView s.dropInput s'.dropInput :=
  h.update (f := State.dropInput) (fun _ _ _ => rfl) id (⟨·, rfl⟩)

theorem layoutBlind_passTime : LayoutBlind State.passTime := by
  intro u d a
  cases hu : u.inputs with
  | nil => simp only [State.passTime, hu]
  | cons e es => cases e <;> simp only [State.passTime, State.dropInput, hu]

theorem SameView.passTime (h : SameView s s') : SameView s.passTime s'.passTime :=
  h.update layoutBlind_passTime (by simp) (by simp)

theorem layoutBlind_serveResponse : LayoutBlind State.serveResponse := by
  intro u d a
  unfold State.serveResponse
  split
  case isTrue h => exact (if_pos h).symm ▸ rfl
  case isFalse h => exact (if_neg h).symm ▸ layoutBlind_passTime u d a

theorem SameView.serveResponse (h : SameView s s') : SameView s.serveResponse s'.serveResponse :=
  h.update layoutBlind_serveResponse (by simp) (by simp)

/-- After a reset of the registers no deck is valid and no load is open. -/
theorem SameView.resetRegisters (h : SameView s s') :
    SameView s.resetRegisters s'.resetRegisters := by
  obtain ⟨d, a, rfl⟩ := h.exists_relayout
  exact ⟨rfl, nofun, nofun⟩

theorem SameView.hardReset (h : SameView s s') : SameView s.hardReset s'.hardReset := by
  obtain ⟨d, a, rfl⟩ := h.exists_relayout
  exact ⟨rfl, nofun, nofun⟩

/-! ### The cards of a load (R81, R82) -/

/-- A new load has no slot written yet. -/
theorem SameView.openLoad (h : SameView s s') :
    SameView { s with deckValid := false, keyValid := false, loading := true, ldcnt := 0#5 }
      { s' with deckValid := false, keyValid := false, loading := true, ldcnt := 0#5 } := by
  obtain ⟨d, a, rfl⟩ := h.exists_relayout
  exact ⟨rfl, nofun, fun _ j hj => absurd hj (Nat.not_lt_zero j)⟩

/-- Decks that agree in the first `n` slots agree in one more after the same card is stored. -/
theorem getElem_set_congr {d d' : Deck} {n : Nat} (hn : n < 28) (c : Card)
    (h : ∀ j : Fin 28, j.val < n → d[j] = d'[j]) (j : Fin 28) (hj : j.val < n + 1) :
    (d.set n c hn)[j] = (d'.set n c hn)[j] := by
  rw [Fin.getElem_fin, Fin.getElem_fin, Vector.getElem_set, Vector.getElem_set]
  split
  case isTrue => rfl
  case isFalse hne => exact h j (by omega)

theorem acceptCard_of_ne {v : Byte} (hlt : s.ldcnt.toNat < 28) (hn : s.ldcnt + 1#5 ≠ 28#5) :
    acceptCard v s = answer .ok (zext (s.ldcnt + 1#5))
      { s with deck := s.deck.set s.ldcnt.toNat (narrow v) hlt, ldcnt := s.ldcnt + 1#5 } := by
  simp only [acceptCard, hlt, hn, dite_true, if_false]

theorem acceptCard_of_eq {v : Byte} (hlt : s.ldcnt.toNat < 28) (hn : s.ldcnt + 1#5 = 28#5) :
    acceptCard v s = answer .ok (zext (s.ldcnt + 1#5))
      { s with
        deck := s.deck.set s.ldcnt.toNat (narrow v) hlt, ldcnt := s.ldcnt + 1#5,
        loading := false, deckValid := true, anchor := Config.loadAnchor } := by
  simp only [acceptCard, hlt, hn, dite_true, if_true]

theorem SameView.alreadyLoaded (h : SameView s s') (hl : s.loading = true) (v : Byte) :
    alreadyLoaded s' v = alreadyLoaded s v := by
  obtain ⟨d, a, rfl⟩ := h.exists_relayout
  have agree : ∀ j : Fin 28, j.val < s.ldcnt.toNat → s.deck[j] = d[j] := h.loaded hl
  rw [Bool.eq_iff_iff, ← not_iff_not, Bool.not_eq_true, Bool.not_eq_true, alreadyLoaded_eq_false,
    alreadyLoaded_eq_false]
  exact forall₂_congr fun j hj => by rw [agree j hj]

/-! ### Results -/

/-- Both commands answer, and the views stay the same. -/
def SameOutcome (r r' : Result) : Prop := ∃ t t', r = .next t ∧ r' = .next t' ∧ SameView t t'

theorem SameView.outcome {t t' : State} (h : SameView t t') : SameOutcome (.next t) (.next t') :=
  ⟨t, t', rfl, rfl, h⟩

theorem SameView.answer (h : SameView s s') (st : Status) (d : Byte) :
    SameOutcome (answer st d s) (answer st d s') :=
  (h.respond st d).outcome

/-- Both runs take the same branch. -/
theorem SameOutcome.ite {c : Prop} [Decidable c] {a a' b b' : Result}
    (ha : c → SameOutcome a a') (hb : ¬c → SameOutcome b b') :
    SameOutcome (if c then a else b) (if c then a' else b') := by
  split
  case isTrue hc => exact ha hc
  case isFalse hc => exact hb hc

/-! ### The gates of R163 -/

theorem SameView.fatalGate (h : SameView s s') {k k' : Result} (hk : SameOutcome k k') :
    SameOutcome (fatalGate s k) (fatalGate s' k') := by
  have refused := h.answer .errFatal 0x00#8
  obtain ⟨d, a, rfl⟩ := h.exists_relayout
  exact .ite (fun _ => refused) fun _ => hk

theorem SameView.loadingGate (h : SameView s s') {k k' : Result}
    (hk : s.loading = false → SameOutcome k k') :
    SameOutcome (loadingGate s k) (loadingGate s' k') := by
  have aborted := h.closeLoad.answer .errCfgLen (zext s.ldcnt)
  obtain ⟨d, a, rfl⟩ := h.exists_relayout
  exact .ite (fun _ => aborted) fun hl => hk (by simpa using hl)

theorem SameView.deckGate (h : SameView s s') {k k' : Result}
    (hk : s.deckValid = true → SameOutcome k k') :
    SameOutcome (deckGate s k) (deckGate s' k') := by
  have refused := h.answer .errNodeck 0x00#8
  obtain ⟨d, a, rfl⟩ := h.exists_relayout
  exact .ite hk fun _ => refused

theorem SameView.cipherGates (h : SameView s s') {k k' : Result}
    (hk : s.loading = false → s.deckValid = true → SameOutcome k k') :
    SameOutcome (cipherGates s k) (cipherGates s' k') :=
  h.fatalGate (h.loadingGate fun hl => h.deckGate (hk hl))

/-! ### The micro-operations on a valid deck -/

theorem SameView.transform (h : SameView s s') {m : Transform} {t t' : State}
    (hl : s.loading = false) (hm : m.run s = .ok t) (hm' : m.run s' = .ok t')
    (hview : t.linear = t'.linear) : SameView t t' := by
  have hloading : t.loading = false := by rw [Transform.run_frame hm]; exact hl
  refine ⟨?_, fun _ => hview, fun hl' => (nomatch hloading.symm.trans hl')⟩
  rw [Transform.run_frame hm', Transform.run_frame hm, h.registers]

/-- A transform step misses the same sentinel in both layouts, or keeps the view. -/
theorem SameView.run_cases (h : SameView s s') (hl : s.loading = false)
    (hv : s.deckValid = true) (m : Transform) :
    (∃ v, m.run s = .error v ∧ m.run s' = .error v) ∨
      ∃ t t', m.run s = .ok t ∧ m.run s' = .ok t' ∧ SameView t t' := by
  have hrun := m.run_sameRun (h.view hv)
  generalize e : m.run s = r, e' : m.run s' = r' at hrun
  cases hrun with
  | error v => exact .inl ⟨v, rfl, rfl⟩
  | ok t t' hview => exact .inr ⟨t, t', rfl, rfl, h.transform hl e e' hview⟩

theorem SameView.answerMicro (h : SameView s s') (hl : s.loading = false)
    (hv : s.deckValid = true) (m : Transform) :
    SameOutcome (answerMicro s (m.run s)) (answerMicro s' (m.run s')) := by
  obtain ⟨v, e, e'⟩ | ⟨t, t', e, e', ht⟩ := h.run_cases hl hv m
  · rw [e, e']
    exact (h.raiseCorrupt v).outcome
  · rw [e, e']
    exact ht.answer .ok 0x00#8

theorem SameView.advance (h : SameView s s') (hl : s.loading = false) (hv : s.deckValid = true)
    (m : Transform) (p : Phase) : SameView (advance s (m.run s) p) (advance s' (m.run s') p) := by
  obtain ⟨v, e, e'⟩ | ⟨t, t', e, e', ht⟩ := h.run_cases hl hv m
  · rw [e, e']
    exact h.raiseCorrupt v
  · rw [e, e']
    exact ht.setPhase p

theorem SameView.candidate (h : SameView s s') (hv : s.deckValid = true) :
    s'.candidate = s.candidate :=
  (State.candidate_congr (h.view hv)).symm

theorem SameView.extract (h : SameView s s') (hv : s.deckValid = true) :
    SameView (microEX s) (microEX s') := by
  rw [microEX_eq, microEX_eq, h.candidate hv]
  generalize s.candidate = c
  exact h.update
    (f := fun u => { u with cand := c, key := if accepts c then c else u.key, keyValid := accepts c })
    (fun _ _ _ => rfl) id (⟨·, rfl⟩)

theorem SameView.completionData (h : SameView s s') : s'.completionData = s.completionData := by
  obtain ⟨d, a, rfl⟩ := h.exists_relayout
  rfl

theorem SameView.retry (h : SameView s s') :
    SameView { s with retry := retrySucc s.retry, phase := .ja }
      { s' with retry := retrySucc s'.retry, phase := .ja } :=
  h.update (f := fun u => { u with retry := retrySucc u.retry, phase := .ja })
    (fun _ _ _ => rfl) id (⟨·, rfl⟩)

theorem SameView.extractStep (h : SameView s s') (hv : s.deckValid = true) :
    SameView (extractStep s) (extractStep s') := by
  have extracted := h.extract hv
  simp only [Machine.extractStep, h.candidate hv]
  split
  · rw [extracted.completionData]
    exact (extracted.setPhase .idle).respond ..
  · exact extracted.retry

theorem SameView.microStep (h : SameView s s') (hl : s.loading = false)
    (hv : s.deckValid = true) (hb : s.busy = true) : SameView (microStep s) (microStep s') := by
  have hphase : s'.phase = s.phase := by rw [h.registers]
  obtain ⟨m, hp⟩ | hp := running_cases hb
  · rw [microStep_transform m hp, microStep_transform m (hphase.trans hp)]
    exact h.advance hl hv m _
  · rw [microStep_extract hp, microStep_extract (hphase.trans hp)]
    exact h.extractStep hv

/-! ### The commands -/

/-- Of the registers RDR names only ANCHOR tells the layout (R26). -/
theorem SameView.readRegister (h : SameView s s') {r : Nat} (hr : r ≠ 1) :
    readRegister s' r = readRegister s r := by
  obtain ⟨d, a, rfl⟩ := h.exists_relayout
  unfold Machine.readRegister
  split
  case h_2 => exact absurd rfl hr
  all_goals rfl

theorem SameView.execRdr (h : SameView s s') {r : Byte} (hr : r ≠ 1#8) :
    SameOutcome (execRdr r s) (execRdr r s') := by
  unfold Machine.execRdr
  rw [h.readRegister fun e => hr (BitVec.eq_of_toNat_eq e)]
  split
  · exact h.answer ..
  · exact h.answer ..

theorem SameView.acceptCard (h : SameView s s') (hwf : s.Wf) (hl : s.loading = true) (v : Byte) :
    SameOutcome (acceptCard v s) (acceptCard v s') := by
  have hlt := hwf.loading_lt hl
  obtain ⟨d, a, rfl⟩ := h.exists_relayout
  have stored := getElem_set_congr hlt (narrow v) (h.loaded hl)
  have hnext := toNat_succ_of_lt hlt
  by_cases hn : s.ldcnt + 1#5 = 28#5
  · rw [acceptCard_of_eq hlt hn, acceptCard_of_eq (s := { s with deck := d, anchor := a }) hlt hn]
    have hdeck : s.deck.set s.ldcnt.toNat (narrow v) hlt = d.set s.ldcnt.toNat (narrow v) hlt :=
      Vector.ext fun i hi => stored ⟨i, hi⟩ (by rw [← hnext, hn]; exact hi)
    refine SameView.answer ?_ ..
    exact ⟨rfl, fun _ => by simp only [State.linear, hdeck], nofun⟩
  · rw [acceptCard_of_ne hlt hn, acceptCard_of_ne (s := { s with deck := d, anchor := a }) hlt hn]
    refine SameView.answer ?_ ..
    exact ⟨rfl, fun hv => (nomatch hl.symm.trans (hwf.valid_not_loading hv)),
      fun _ j hj => stored j (hnext ▸ hj)⟩

theorem SameView.execCard (h : SameView s s') (hwf : s.Wf) (v : Byte) :
    SameOutcome (execCard v s) (execCard v s') := by
  have dropped := h.dropDeck.answer .errCfgLen (zext s.ldcnt)
  have closed := fun st => h.closeLoad.answer st (zext s.ldcnt)
  have hdup := fun hl => h.alreadyLoaded hl v
  have accepted := fun hl => h.acceptCard hwf hl v
  refine h.fatalGate ?_
  obtain ⟨d, a, rfl⟩ := h.exists_relayout
  refine .ite (fun _ => dropped) fun hl => ?_
  replace hl : s.loading = true := by simpa using hl
  rw [hdup hl]
  exact .ite (fun _ => closed _) fun _ => .ite (fun _ => closed _) fun _ => accepted hl

theorem SameView.execLoad (h : SameView s s') : SameOutcome (execLoad s) (execLoad s') :=
  h.fatalGate (h.loadingGate fun _ => h.openLoad.answer ..)

theorem isCardOperand_iff {v : Byte} : isCardOperand v = true ↔ 1 ≤ v.toNat ∧ v.toNat ≤ 28 := by
  simp [isCardOperand, inRange]

theorem SameView.execRdp (h : SameView s s') (p : Byte) :
    SameOutcome (execRdp p s) (execRdp p s') := by
  refine h.cipherGates fun _ hv => ?_
  split
  case isTrue hp =>
    obtain ⟨hlo, hhi⟩ := isCardOperand_iff.mp hp
    rw [cardAt_congr (h.view hv) hlo hhi]
    exact h.answer ..
  case isFalse => exact h.answer ..

theorem SameView.execFind (h : SameView s s') (v : Byte) :
    SameOutcome (execFind v s) (execFind v s') := by
  refine h.cipherGates fun _ hv => ?_
  rw [State.findCard_congr s s' (h.view hv)]
  exact .ite (fun _ => h.answer ..) fun _ => h.answer ..

theorem SameView.execEx (h : SameView s s') : SameOutcome (execEx s) (execEx s') := by
  refine h.cipherGates fun _ hv => ?_
  rw [h.candidate hv]
  exact (h.extract hv).answer ..

theorem SameView.exec_transform (h : SameView s s') (m : Transform) :
    SameOutcome (exec m.instr s) (exec m.instr s') := by
  rw [Machine.exec_transform, Machine.exec_transform]
  exact h.cipherGates fun hl hv => h.answerMicro hl hv m

/-- No command but RDS and RDR 1 tells two layouts apart (R45). -/
theorem SameView.exec (h : SameView s s') (hwf : s.Wf)
    {i : Instr} (hrds : ∀ n, i ≠ .rds n) (hrdr : i ≠ .rdr 1#8) :
    SameOutcome (exec i s) (exec i s') := by
  cases i with
  | rds n => exact absurd rfl (hrds n)
  | rdr r => exact h.execRdr fun e => hrdr (congrArg _ e)
  | nop => exact h.answer ..
  | srst => exact h.resetRegisters.answer ..
  | load => exact h.execLoad
  | card v => exact h.execCard hwf v
  | ja => exact h.exec_transform .ja
  | jb => exact h.exec_transform .jb
  | tc => exact h.exec_transform .tc
  | cc => exact h.exec_transform .cc
  | ex => exact h.execEx
  | key => exact h.cipherGates fun _ _ => (h.loopEntry ..).outcome
  | enci | deci | encc | decc =>
    exact h.cipherGates fun _ _ => .ite (fun _ => (h.loopEntry ..).outcome) fun _ => h.answer ..
  | rdp p => exact h.execRdp p
  | find v => exact h.execFind v

theorem SameView.runWord (h : SameView s s') (hwf : s.Wf)
    {w : CmdWord} (hrds : ∀ n, w ≠ encode (.rds n)) (hrdr : w ≠ encode (.rdr 1#8)) :
    SameOutcome (runWord w s) (runWord w s') := by
  unfold Machine.runWord
  split
  case h_1 i hd =>
    obtain rfl := encode_of_decode hd
    exact h.exec hwf (fun n e => hrds n (congrArg encode e)) fun e => hrdr (congrArg encode e)
  case h_2 => exact h.answer ..

/-! ### The steps -/

theorem SameView.step (h : SameView s s') (hwf : s.Wf)
    (hrds : ∀ n, s.offered ≠ some (encode (.rds n))) (hrdr : s.offered ≠ some (encode (.rdr 1#8))) :
    SameOutcome (step s) (step s') := by
  have hrst : s'.rst = s.rst := by rw [h.registers]; rfl
  have hbusy : s'.busy = s.busy := by rw [h.registers]; rfl
  have hrsp : s'.rsp = s.rsp := by rw [h.registers]
  have hoffered : s'.offered = s.offered := by rw [h.registers]; rfl
  unfold Machine.step
  rw [hrst, hbusy, hrsp, hoffered]
  refine .ite (fun _ => h.hardReset.outcome) fun _ => ?_
  split
  case isTrue hb =>
    obtain ⟨hv, -, -⟩ := hwf.busy_loop hb
    have hl : s.loading = false := hwf.valid_not_loading hv
    exact (h.passTime.microStep (by simpa using hl) (by simpa using hv)
      (by simpa [State.busy] using hb)).outcome
  case isFalse =>
    refine .ite (fun _ => h.serveResponse.outcome) fun _ => ?_
    split
    case h_1 w ho =>
      have hwf : s.dropInput.Wf := hwf.ports s.inputs.tail (.inr rfl)
      exact h.dropInput.runWord hwf (fun n e => hrds n (e ▸ ho)) fun e => hrdr (e ▸ ho)
    case h_2 => exact h.passTime.outcome

end

/-- Settles O57: each event of R60 reads the deck through its linear view while a deck is valid and
through the written slots while a load is open; the response is one of the registers that agree. -/
theorem physicalLayoutIsInvisible : Obligations.PhysicalLayoutIsInvisible := by
  intro s s' hwf _ h hrds hrdr
  obtain ⟨t, t', e, e', ht⟩ := h.step hwf hrds hrdr
  exact ⟨t, t', e, e', ht, by rw [ht.registers]⟩

end Sys2Proof.Machine
end

section
/-! PROOFS of 20_memory.md: the translation of addresses (R41), find (R44), and the one slot that does
not exist (R49). -/

namespace Sys2Proof.Machine

/-! ### Positions and slots (R41) -/

theorem posOf_eq (a : Card) (j : Fin 28) :
    (posOf a j : Int) = ((j.val : Int) - (a.toNat : Int) - 1) % 28 + 1 := by
  unfold posOf
  omega

/-- The anchor slot is position 28. -/
theorem posOf_anchor {a : Card} {j : Fin 28} (h : j.val = a.toNat) : posOf a j = 28 := by
  unfold posOf
  omega

theorem State.linear_getElem? (s : State) {p : Nat} (hp : 1 ≤ p) (hp' : p ≤ 28) :
    s.linear[p - 1]? = some (s.cardAt p) := by
  have hlt : p - 1 < 28 := by omega
  rw [List.getElem?_eq_getElem (by simpa using hlt), s.linear_getElem _ hlt, Nat.sub_add_cancel hp]

/-- Settles O21: `slotOf` and `posOf` are inverse to each other, and the linear view reads the slots
in the order of their positions. -/
theorem positionsAndSlotsTranslateBothWays : Obligations.PositionsAndSlotsTranslateBothWays := by
  intro s ha
  have anchor_slot : (slotOf s.anchor 28).val = s.anchor.toNat := by
    rw [slotOf_val, Nat.add_mod_right, Nat.mod_eq_of_lt ha]
  exact ⟨anchor_slot, slotOf_val _ 1, slotOf_val _, posOf_eq _, posOf_slotOf _,
    fun j => ⟨slotOf_posOf _ j, posOf_pos _ j, posOf_le _ j, posOf_anchor⟩,
    fun _ => rfl, s.linear_length, fun _ => s.linear_getElem?⟩

/-! ### find (R44) -/

/-- On a complete deck a card is found at its only position. -/
theorem DeckComplete.findCard_unique {s : State} (h : DeckComplete s.deck) {v : Card}
    (h1 : 1 ≤ v.toNat) (h2 : v.toNat ≤ 28) :
    ∃ p, s.findCard v = some p ∧ ∀ q, 1 ≤ q → q ≤ 28 → s.cardAt q = v → q = p := by
  obtain ⟨p, hp⟩ := h.findCard_isSome v h1 h2
  obtain ⟨hlo, hhi, hcard, -⟩ := (s.findCard_eq_some v p).mp hp
  exact ⟨p, hp, fun q hq hq' e => h.cardAt_inj hq hq' hlo hhi (e.trans hcard.symm)⟩

/-- Settles O22: the search from position 1 on stops at the least position, and a complete deck holds
no card twice. -/
theorem findIsTheLeastPosition : Obligations.FindIsTheLeastPosition :=
  fun s v => ⟨s.findCard_eq_some v, s.findCard_eq_none v, fun h => h.findCard_unique⟩

/-! ### The slot past the deck (R49) -/

/-- CARD `v` would write the slot LDCNT, which does not exist. -/
def PastLastSlot (v : Byte) (s : State) : Prop :=
  s.fatal = false ∧ s.loading = true ∧ 1 ≤ v.toNat ∧ v.toNat ≤ 28 ∧ 28 ≤ s.ldcnt.toNat ∧
    ∀ j : Fin 28, s.deck[j].toNat ≠ v.toNat

/-- Past the last slot the duplicate test looks at the whole deck (R82, log entry 5). -/
theorem alreadyLoaded_eq_false_of_le {s : State} {v : Byte} (hv : v.toNat ≤ 28)
    (hn : 28 ≤ s.ldcnt.toNat) :
    alreadyLoaded s v = false ↔ ∀ j : Fin 28, s.deck[j].toNat ≠ v.toNat := by
  have hnarrow : (narrow v).toNat = v.toNat := by
    rw [narrow, BitVec.toNat_setWidth, Nat.mod_eq_of_lt (by omega)]
  rw [alreadyLoaded_eq_false]
  refine forall_congr' fun j => ?_
  rw [← hnarrow, Ne, Ne, BitVec.toNat_inj]
  exact forall_prop_of_true (j.isLt.trans_le hn)

theorem execCard_pastLastSlot {v : Byte} {s : State} (h : PastLastSlot v s) :
    execCard v s = .fault .noSuchSlot := by
  obtain ⟨hf, hl, hlo, hhi, hn, habsent⟩ := h
  have hv := isCardOperand_iff.mpr ⟨hlo, hhi⟩
  have hnew := (alreadyLoaded_eq_false_of_le hhi hn).mpr habsent
  rw [execCard, fatalGate_open hf, acceptCard, dif_neg (Nat.not_lt.mpr hn)]
  simp [hl, hv, hnew]

/-- Each of the refusals of R82 and each slot of the deck is an answer; what is left is the slot past
the deck. -/
theorem execCard_answers_or_pastLastSlot (v : Byte) (s : State) :
    Answers (execCard v s) ∨ PastLastSlot v s := by
  cases hf : s.fatal with
  | true => exact .inl (by rw [execCard, fatalGate, if_pos hf]; exact answers_answer ..)
  | false =>
    by_cases hslot : s.loading = true → s.ldcnt.toNat < 28
    · exact .inl (answers_execCard v hslot)
    obtain ⟨hl, hn⟩ := Classical.not_imp.mp hslot
    rw [execCard, fatalGate_open hf, hl]
    cases hv : isCardOperand v with
    | false => exact .inl (answers_answer ..)
    | true =>
      cases hnew : alreadyLoaded s v with
      | true => exact .inl (answers_answer ..)
      | false =>
        obtain ⟨hlo, hhi⟩ := isCardOperand_iff.mp hv
        have hn := Nat.not_lt.mp hn
        exact .inr ⟨hf, hl, hlo, hhi, hn, (alreadyLoaded_eq_false_of_le hhi hn).mp hnew⟩

/-- A command that does not answer is a CARD past the last slot. -/
theorem exec_answers_or_pastLastSlot (i : Instr) (s : State) :
    Answers (exec i s) ∨ ∃ v, i = .card v ∧ PastLastSlot v s := by
  by_cases hi : ∃ v, i = .card v
  · obtain ⟨v, rfl⟩ := hi
    exact (execCard_answers_or_pastLastSlot v s).imp_right fun h => ⟨v, rfl, h⟩
  · exact .inl (exec_answers_of_ne_card (fun v e => hi ⟨v, e⟩) s)

theorem exec_pastLastSlot {i : Instr} {s : State} (h : ∃ v, i = .card v ∧ PastLastSlot v s) :
    exec i s = .fault .noSuchSlot := by
  obtain ⟨v, rfl, h⟩ := h
  exact execCard_pastLastSlot h

/-- Settles O56: every other path of every command answers. -/
theorem onlyACardPastSlot27Stops : Obligations.OnlyACardPastSlot27Stops := by
  intro i s
  have stops : (∀ t, exec i s ≠ .next t) → ∃ v, i = .card v ∧ PastLastSlot v s := fun h =>
    (exec_answers_or_pastLastSlot i s).resolve_left fun ⟨t, e⟩ => h t e
  exact ⟨⟨stops, fun h t e => (nomatch (exec_pastLastSlot h).symm.trans e)⟩,
    fun h => exec_pastLastSlot (stops h)⟩

end Sys2Proof.Machine
end

section
/-! PROOFS of 30_encoding.md: the words that decode to a command and the illegal ones (R61, R63,
R65, R67), and the one format of a response word (R62, R160). -/

namespace Sys2Proof.Machine

/-! ### Encoded words (R61, R67) -/

theorem opcodeField_append (a b : Byte) : opcodeField (a ++ b) = a :=
  BitVec.extractLsb'_append_eq_left

theorem operandField_append (a b : Byte) : operandField (a ++ b) = b :=
  BitVec.extractLsb'_append_eq_right

/-- A word that holds the opcode and the operand of a command decodes to it. -/
theorem decode_of_fields {w : CmdWord} {i : Instr} (hop : opcodeField w = i.opcode)
    (hoperand : operandField w = i.operand) : decode w = .ok i := by
  unfold decode
  rw [hop]
  cases i with
  | nop | srst | load | ja | jb | tc | cc | ex | key => exact if_pos hoperand
  | rdr | card | enci | deci | encc | decc | rdp | rds | find => rw [hoperand]; rfl

theorem decode_encode (i : Instr) : decode (encode i) = .ok i :=
  decode_of_fields (opcodeField_append ..) (operandField_append ..)

/-- Settles O1: `encode_of_decode` and `decode_encode`. -/
theorem decodeReadsExactlyTheEncodedWord : Obligations.DecodeReadsExactlyTheEncodedWord :=
  fun _ i => ⟨encode_of_decode, fun h => h ▸ decode_encode i⟩

/-- Settles O3: each row of R63 writes out the encoding of its command. -/
theorem sampleWordsDecodeAsListed : Obligations.SampleWordsDecodeAsListed :=
  ⟨⟨decode_encode .nop, decode_encode .srst, decode_encode .load, decode_encode .ja,
      decode_encode .jb, decode_encode .tc, decode_encode .cc, decode_encode .ex,
      decode_encode .key⟩,
    fun b => ⟨decode_encode (.rdr b), decode_encode (.card b), decode_encode (.enci b),
      decode_encode (.deci b), decode_encode (.encc b), decode_encode (.decc b),
      decode_encode (.rdp b), decode_encode (.rds b), decode_encode (.find b)⟩,
    decode_encode (.rdr 5#8), decode_encode (.card 13#8), decode_encode (.encc 0x48#8),
    decode_encode (.rds 27#8)⟩

/-! ### Reserved words (R65) -/

/-- The 18 opcodes of R63. -/
def usedOpcodes : List Nat :=
  [0x00, 0x01, 0x02, 0x10, 0x11, 0x20, 0x21, 0x22, 0x23, 0x24, 0x30, 0x40, 0x41, 0x42, 0x43, 0x50,
    0x51, 0x52]

/-- The opcodes of the `zero` rows of R63. -/
def zeroOpcodes : List Nat := [0x00, 0x01, 0x10, 0x20, 0x21, 0x22, 0x23, 0x24, 0x30]

theorem mem_usedOpcodes_of_mem_zeroOpcodes {n : Nat} (h : n ∈ zeroOpcodes) : n ∈ usedOpcodes :=
  (show zeroOpcodes ⊆ usedOpcodes by decide) h

theorem opcodeField_toNat (w : CmdWord) : (opcodeField w).toNat = w.toNat / 256 := by
  rw [opcodeField, BitVec.extractLsb'_toNat, Nat.shiftRight_eq_div_pow]
  omega

theorem operandField_toNat (w : CmdWord) : (operandField w).toNat = w.toNat % 256 := by
  rw [operandField, BitVec.extractLsb'_toNat, Nat.shiftRight_zero]

/-- The decoder's rows: `zero`, `imm8`, or no row at all. -/
theorem decode_cases (w : CmdWord) :
    ((opcodeField w).toNat ∈ zeroOpcodes ∧ ∃ i, decode w = zeroForm i w) ∨
    ((opcodeField w).toNat ∈ usedOpcodes ∧ (opcodeField w).toNat ∉ zeroOpcodes ∧
      ∃ i, decode w = .ok i) ∨
    ((opcodeField w).toNat ∉ usedOpcodes ∧ ∃ e, decode w = .error e) := by
  unfold decode
  generalize opcodeField w = op
  split
  case h_19 =>
    refine .inr (.inr ⟨?_, _, rfl⟩)
    simp_all [usedOpcodes, ← BitVec.toNat_inj]
  case h_1 | h_2 | h_4 | h_6 | h_7 | h_8 | h_9 | h_10 | h_11 => exact .inl ⟨by decide, _, rfl⟩
  all_goals exact .inr (.inl ⟨by decide, by decide, _, rfl⟩)

theorem zeroForm_eq_error_iff {i : Instr} {w : CmdWord} :
    (∃ e, zeroForm i w = .error e) ↔ operandField w ≠ 0#8 := by
  unfold zeroForm
  split
  case isTrue h => exact ⟨nofun, absurd h⟩
  case isFalse h => exact ⟨fun _ => h, fun _ => ⟨_, rfl⟩⟩

theorem decode_eq_error_iff (w : CmdWord) :
    (∃ e, decode w = .error e) ↔ w.toNat / 256 ∉ usedOpcodes ∨
      (w.toNat / 256 ∈ zeroOpcodes ∧ w.toNat % 256 ≠ 0) := by
  rw [← opcodeField_toNat, ← operandField_toNat]
  obtain ⟨hz, i, e⟩ | ⟨hu, hz, i, e⟩ | ⟨hu, e⟩ := decode_cases w
  · rw [e, zeroForm_eq_error_iff]
    simp [hz, mem_usedOpcodes_of_mem_zeroOpcodes hz, ← BitVec.toNat_inj]
  · simp [e, hu, hz]
  · simp [e, hu]

/-! ### Response words (R62, R160) -/

theorem rspWord_toNat (st : Status) (d : Byte) :
    (rspWord st d).toNat = 4096 * st.code.toNat + d.toNat := by
  have hlow : (0#4 ++ d).toNat = d.toNat := by
    rw [BitVec.toNat_append, BitVec.toNat_ofNat, Nat.zero_mod, Nat.zero_shiftLeft, Nat.zero_or]
  have hd : d.toNat < 2 ^ (4 + 8) := by omega
  rw [rspWord, BitVec.toNat_append, hlow, ← Nat.shiftLeft_add_eq_or_of_lt hd, Nat.shiftLeft_eq,
    Nat.mul_comm]

/-- Settles O4: the fields are the digits of `rspWord_toNat`. -/
theorem responseWordHasTheOneFormat : Obligations.ResponseWordHasTheOneFormat := by
  refine ⟨fun st d => ?_, rfl⟩
  rw [rspWord_toNat]
  omega

end Sys2Proof.Machine
end

section
/-! PROOFS of 30_encoding.md: what a step does at the ports (R60, R121, R163, R180, R185), and the
answer to a reserved word (R65). -/

namespace Sys2Proof.Machine

section

variable {s : State}

/-! ### Outputs (R60, R169, R180) -/

theorem State.busy_eq_false_iff : s.busy = false ↔ s.phase = .idle ∨ s.phase = .fault := by
  rw [State.busy]
  cases s.phase <;> decide

theorem State.busy_iff : s.busy = true ↔ s.phase ∈ [Phase.ja, .jb, .tc, .cc, .ex] := by
  rw [State.busy]
  cases s.phase <;> decide

theorem State.rspValid_iff : s.rspValid = true ↔ s.rst = false ∧ s.rsp ≠ none := by
  simp [State.rspValid, Option.isSome_iff_ne_none]

/-! ### Answers as next states (R62, R161) -/

theorem answer_error {st : Status} (h : st.isError = true) (d : Byte) :
    answer st d s = .next { s with lastErr := st.code, rsp := some (rspWord st d) } := by
  rw [answer, s.respond_error h]

theorem answer_normal {st : Status} (h : st.isError = false) (d : Byte) :
    answer st d s = .next { s with rsp := some (rspWord st d) } := by
  rw [answer, s.respond_normal h]

/-! ### Steps with a word offered (R60, R163) -/

variable {w : CmdWord} {rest : List PortEvent}

/-- A ready engine accepts the offered word. -/
theorem step_of_offer (hin : s.inputs = .offer w :: rest) (hready : s.cmdReady = true) :
    step s = runWord w { s with inputs := rest } := by
  obtain ⟨hrst, hbusy, hrsp⟩ := State.cmdReady_iff.mp hready
  have hoffered : s.offered = some w := State.offered_eq_some.mpr ⟨rest, hin⟩
  have hdrop : s.dropInput = { s with inputs := rest } := by rw [State.dropInput, hin]; rfl
  simp [step, hrst, hbusy, hrsp, hoffered, hdrop]

theorem runWord_of_ok {i : Instr} (h : decode w = .ok i) : runWord w s = exec i s := by
  rw [runWord, h]

theorem runWord_of_error {e : DecodeError} (h : decode w = .error e) :
    runWord w s = .next { s with lastErr := 0x8#4, rsp := some 0x8000#16 } := by
  rw [runWord, h]
  exact answer_error rfl _

theorem rst_of_offer (hin : s.inputs = .offer w :: rest) : s.rst = false := by
  rw [State.rst, hin]

theorem rspReady_of_offer (hin : s.inputs = .offer w :: rest) : s.rspReady = false := by
  rw [State.rspReady, hin]

/-- An offer stays while it is not accepted (R60, log entry 3). -/
theorem passTime_of_offer (hin : s.inputs = .offer w :: rest) : s.passTime = s := by
  rw [State.passTime, hin]

theorem serveResponse_of_offer (hin : s.inputs = .offer w :: rest) : s.serveResponse = s := by
  rw [State.serveResponse, rspReady_of_offer hin, passTime_of_offer hin]
  rfl

/-! ### Steps of an engine that is not ready (R121, R185) -/

theorem step_of_busy (hrst : s.rst = false) (hb : s.busy = true) :
    step s = .next (microStep s.passTime) := by
  simp [step, hrst, hb]

theorem step_of_rsp (hrst : s.rst = false) (hb : s.busy = false) (hrsp : s.rsp ≠ none) :
    step s = .next s.serveResponse := by
  simp [step, hrst, hb, Option.isSome_iff_ne_none, hrsp]

end

/-! ### The statements about ports and steps -/

/-- Settles O6: one equivalence for each output. -/
theorem outputsFollowPhaseAndPorts : Obligations.OutputsFollowPhaseAndPorts := by
  intro s
  refine ⟨?_, State.busy_iff, rfl, State.rspValid_iff⟩
  rw [State.cmdReady_iff, State.busy_eq_false_iff]

/-- Settles O5: the accepted word is decoded and executed. -/
theorem stepExecutesTheAcceptedCommand : Obligations.StepExecutesTheAcceptedCommand :=
  fun _ _ _ _ hin hready hd => (step_of_offer hin hready).trans (runWord_of_ok hd)

/-- Settles O2: the words outside the decoder's rows, and their one answer. -/
theorem reservedWordsAreIllegalInEveryState : Obligations.ReservedWordsAreIllegalInEveryState :=
  ⟨decode_eq_error_iff,
    fun _ _ _ _ hin hready hd => (step_of_offer hin hready).trans (runWord_of_error hd)⟩

/-- Settles O7: no time passes for an offer, a micro-step leaves the inputs, and an offer takes no
response. -/
theorem offerWaitsWhileEngineIsNotReady : Obligations.OfferWaitsWhileEngineIsNotReady := by
  intro s w rest hin
  have hrst : s.rst = false := rst_of_offer hin
  refine ⟨fun hb => ⟨?_, ?_⟩, fun hb hrsp => ?_⟩
  · rw [step_of_busy hrst hb, passTime_of_offer hin]
  · obtain ⟨-, -, -, -, -, hinputs, -⟩ := microStep_frame s
    exact hinputs
  · rw [step_of_rsp hrst hb hrsp, serveResponse_of_offer hin]

/-- Settles O8: `serveResponse` takes the response when the host is ready for it, else only the
host's time passes. -/
theorem responseIsHeldUntilTaken : Obligations.ResponseIsHeldUntilTaken := by
  intro s w hw hb hrst
  have hstep : step s = .next s.serveResponse := step_of_rsp hrst hb (hw ▸ nofun)
  refine ⟨fun rest hin => ?_, fun hready => ⟨_, hstep, ?_⟩⟩
  · simp [hstep, State.serveResponse, State.rspReady, State.dropInput, hin]
  · conv_lhs => rw [s.serveResponse_eq, hready]
    rfl

/-! ### Commands (R62, R121) -/

/-- Every effect but the entry of the key loop responds and leaves the engine at rest. -/
theorem Effect.responds_or_entersLoop {s t : State} {i : Instr} (e : Effect s i t)
    (hb : s.busy = false) :
    (t.busy = false ∧ ∃ st d, t.rsp = some (rspWord st d)) ∨
      (t.phase = .ja ∧ t.rsp = s.rsp ∧ IsLoopCommand i) := by
  cases e with
  | entersLoop _ _ _ _ _ hi => exact .inr ⟨rfl, rfl, hi⟩
  | resets | corrupts => exact .inl ⟨rfl, _, _, rfl⟩
  | responds | closesLoad | opensLoad | dropsDeck | storesCard | completesLoad =>
    exact .inl ⟨hb, _, _, rfl⟩
  | transforms m t _ hm =>
    rw [Transform.run_frame hm]
    exact .inl ⟨hb, _, _, rfl⟩
  | extracts =>
    rw [microEX_eq]
    exact .inl ⟨hb, _, _, rfl⟩

/-- Settles O49: of all effects only the entry of the key loop gives no response. -/
theorem everyCommandRespondsOrEntersTheLoop : Obligations.EveryCommandRespondsOrEntersTheLoop := by
  intro i s t hb hrsp h
  obtain responded | ⟨hp, hr, hi⟩ := (exec_effect h).responds_or_entersLoop hb
  · exact .inl responded
  · exact .inr ⟨hp, hr.trans hrsp, hi⟩

end Sys2Proof.Machine
end

section
/-! PROOFS of 30_encoding.md: the operand check (R64, R136, R163 step 5). -/

namespace Sys2Proof.Machine

theorem inRange_eq_false_iff {lo hi : Nat} {b : Byte} :
    inRange lo hi b = false ↔ b.toNat < lo ∨ hi < b.toNat := by
  rw [inRange, decide_eq_false_iff_not]
  omega

theorem isLetter_eq_false_iff {c : Byte} :
    isLetter c = false ↔ c.toNat < 0x41 ∨ (0x5A < c.toNat ∧ c.toNat < 0x61) ∨ 0x7A < c.toNat := by
  rw [isLetter, Bool.or_eq_false_iff, isUpper, isLower, inRange_eq_false_iff, inRange_eq_false_iff]
  omega

section

variable {s : State}

theorem answer_errOperand : answer .errOperand 0x00#8 s =
    .next { s with lastErr := 0x9#4, rsp := some 0x9000#16 } :=
  answer_error rfl _

theorem answer_dropped : answer .dropped 0x00#8 s = .next { s with rsp := some 0x1000#16 } :=
  answer_normal rfl _

/-- With the gates open a failed operand check decides the answer. -/
theorem cipherGates_of_check_fails (ho : s.GatesOpen) {c : Bool} (hc : c = false) (k r : Result) :
    cipherGates s (if c then k else r) = r := by
  rw [cipherGates_open ho, hc]
  rfl

theorem execRds_of_lt (ho : s.GatesOpen) {n : Byte} (hn : 27 < n.toNat) :
    execRds n s = answer .errOperand 0x00#8 s := by
  rw [execRds, cipherGates_open ho, dif_neg (by omega)]

end

/-- Settles O15: with the gates open nothing but the operand check decides. -/
theorem operandCheckRefusesBeforeAnyEffect : Obligations.OperandCheckRefusesBeforeAnyEffect := by
  intro b s ho
  rw [← answer_errOperand, ← answer_dropped]
  refine ⟨fun hb i hi => ?index, fun hb i hi => ?card, execRds_of_lt ho,
    fun hb => cipherGates_of_check_fails ho (inRange_eq_false_iff.mpr hb) _ _,
    fun hb => cipherGates_of_check_fails ho (isLetter_eq_false_iff.mpr hb) _ _⟩
  case index =>
    obtain rfl | rfl : i = .enci b ∨ i = .deci b := by simpa using hi
    all_goals exact cipherGates_of_check_fails ho (inRange_eq_false_iff.mpr hb) _ _
  case card =>
    obtain rfl | rfl : i = .rdp b ∨ i = .find b := by simpa using hi
    all_goals exact cipherGates_of_check_fails ho (inRange_eq_false_iff.mpr hb) _ _

end Sys2Proof.Machine
end

section
/-! PROOFS of 40_deck_load.md: LOAD and CARD (R81, R82), and the run of a complete load (R80, R83,
R84): an induction over the commands of a run, with the progress of the load as what each command
advances. -/

namespace Sys2Proof.Machine

/-! ### The checks of CARD (R82) -/

theorem narrow_toNat {v : Byte} (h : v.toNat ≤ 28) : (narrow v).toNat = v.toNat := by
  rw [narrow, BitVec.toNat_setWidth, Nat.mod_eq_of_lt (by omega)]

section

variable {v : Byte} {s : State}

/-- The duplicate test compares the values of the cards (R82). -/
theorem alreadyLoaded_iff (hv : v.toNat ≤ 28) : alreadyLoaded s v = true ↔
    ∃ j : Fin 28, j.val < s.ldcnt.toNat ∧ s.deck[j].toNat = v.toNat := by
  rw [← narrow_toNat hv, ← not_iff_not, Bool.not_eq_true, alreadyLoaded_eq_false]
  simp only [BitVec.toNat_inj, not_exists, not_and, Ne]

theorem execCard_closed (hf : s.fatal = false) (hl : s.loading = false) :
    execCard v s =
      answer .errCfgLen (zext s.ldcnt) { s with deckValid := false, keyValid := false } := by
  simp [execCard, fatalGate_open hf, hl]

theorem execCard_outOfRange (hf : s.fatal = false) (hl : s.loading = true)
    (hv : isCardOperand v = false) :
    execCard v s = answer .errCfgRange (zext s.ldcnt) { s with loading := false } := by
  simp [execCard, fatalGate_open hf, hl, hv]

theorem execCard_duplicate (hf : s.fatal = false) (hl : s.loading = true)
    (hv : isCardOperand v = true) (hdup : alreadyLoaded s v = true) :
    execCard v s = answer .errCfgDup (zext s.ldcnt) { s with loading := false } := by
  simp [execCard, fatalGate_open hf, hl, hv, hdup]

theorem execCard_new (hf : s.fatal = false) (hl : s.loading = true)
    (hv : isCardOperand v = true) (hnew : alreadyLoaded s v = false) :
    execCard v s = acceptCard v s := by
  simp [execCard, fatalGate_open hf, hl, hv, hnew]

/-- LDCNT is counted before or after it is widened to the data byte. -/
theorem zext_succ {n : Card} (h : n.toNat < 28) : zext (n + 1#5) = n.setWidth 8 + 1#8 := by
  rw [zext]
  bv_omega

/-- The accepted card before the 28th and the 28th in one equation (R82). -/
theorem acceptCard_eq (h : s.ldcnt.toNat < 28) (hl : s.loading = true) :
    acceptCard v s = .next { s with
      deck := s.deck.set s.ldcnt.toNat (narrow v) h
      ldcnt := s.ldcnt + 1#5
      loading := decide (s.ldcnt.toNat ≠ 27)
      deckValid := if s.ldcnt.toNat = 27 then true else s.deckValid
      anchor := if s.ldcnt.toNat = 27 then 27#5 else s.anchor
      rsp := some (rspWord .ok (s.ldcnt.setWidth 8 + 1#8)) } := by
  rw [← zext_succ h]
  by_cases hlast : s.ldcnt.toNat = 27
  · have hn : s.ldcnt + 1#5 = 28#5 := by bv_omega
    rw [acceptCard_of_eq h hn, answer_normal rfl]
    simp [hlast, Config.loadAnchor]
  · have hn : s.ldcnt + 1#5 ≠ 28#5 := by bv_omega
    rw [acceptCard_of_ne h hn, answer_normal rfl]
    simp [hlast, hl]

end

/-! ### The statements about LOAD and CARD -/

/-- Settles O16: with the FATAL and LOADING gates open LOAD only opens the load. -/
theorem loadOpensALoad : Obligations.LoadOpensALoad := fun s hf hl =>
  calc exec .load s
    _ = loadingGate s _ := fatalGate_open hf _
    _ = _ := loadingGate_open hl _
    _ = _ := answer_normal rfl _

/-- Settles O17: the card passes the three checks, so it is accepted. -/
theorem cardFillsTheNextSlot : Obligations.CardFillsTheNextSlot := by
  intro v s h hf hl hlo hhi hfresh
  have hnew : alreadyLoaded s v = false := by
    rw [← Bool.not_eq_true, alreadyLoaded_iff hhi]
    exact fun ⟨j, hj, e⟩ => hfresh j hj e
  exact (execCard_new hf hl (isCardOperand_iff.mpr ⟨hlo, hhi⟩) hnew).trans (acceptCard_eq h hl)

/-- Settles O18: one check of R82 fails, and those before it pass. -/
theorem cardConfigurationErrorsCloseTheLoad :
    Obligations.CardConfigurationErrorsCloseTheLoad := by
  intro v s hf
  refine ⟨fun hl => ?length, fun hl hv => ?range, fun hl hlo hhi hdup => ?duplicate⟩
  case length => exact (execCard_closed hf hl).trans (answer_error rfl _)
  case range =>
    exact (execCard_outOfRange hf hl (inRange_eq_false_iff.mpr hv)).trans (answer_error rfl _)
  case duplicate =>
    have hcard := isCardOperand_iff.mpr ⟨hlo, hhi⟩
    exact (execCard_duplicate hf hl hcard ((alreadyLoaded_iff hhi).mpr hdup)).trans
      (answer_error rfl _)

/-! ### Runs of commands that respond at once -/

/-- A command that responds in its first step is answered within one step. -/
theorem issue_one_of_exec {i : Instr} {s t : State} {w : RspWord} (hb : s.busy = false)
    (he : exec i { s with inputs := [], rsp := none } = .next t) (hw : t.rsp = some w) :
    issue 1 i s = some (w, { t with rsp := none }) := by
  have hready : { s with inputs := [.offer (encode i)], rsp := none }.cmdReady = true :=
    State.cmdReady_iff.mpr ⟨rfl, hb, rfl⟩
  have hstep : step { s with inputs := [.offer (encode i)], rsp := none } = .next t :=
    (step_of_offer rfl hready).trans ((runWord_of_ok (decode_encode i)).trans he)
  simp only [issue, steps, hstep, hw]

theorem issueAll_cons {k : Nat} {i : Instr} {is : List Instr} {s t u : State} {w : RspWord}
    {ws : List RspWord} (hi : issue k i s = some (w, t)) (his : issueAll k is t = some (ws, u)) :
    issueAll k (i :: is) s = some (w :: ws, u) := by
  simp only [issueAll, hi, his]

/-- The induction over a run: when command `n` answers `w n` and takes `P n` to `P (n + 1)`, the
whole run gives these answers in order and ends in the last `P`. -/
theorem issueAll_of_progress {k : Nat} {is : List Instr} {P : Nat → State → Prop}
    {w : Nat → RspWord}
    (hstep : ∀ (n : Nat) (hn : n < is.length) (s : State), P n s →
      ∃ t, issue k is[n] s = some (w n, t) ∧ P (n + 1) t)
    {s : State} (hs : P 0 s) :
    ∃ t, issueAll k is s = some ((List.range is.length).map w, t) ∧ P is.length t := by
  induction is generalizing P w s with
  | nil => exact ⟨s, rfl, hs⟩
  | cons i is ih =>
    obtain ⟨t, hi, ht⟩ := hstep 0 (Nat.zero_lt_succ _) s hs
    obtain ⟨u, his, hu⟩ := ih (P := fun n => P (n + 1)) (w := fun n => w (n + 1))
      (fun n hn => hstep (n + 1) (Nat.succ_lt_succ hn)) ht
    refine ⟨u, ?_, hu⟩
    rw [List.length_cons, List.range_succ_eq_map, List.map_cons, List.map_map]
    exact issueAll_cons hi his

/-! ### The progress of a load (R80, R82, R83) -/

/-- The first `n` cards of `vs` have been accepted since LOAD. -/
structure LoadProgress (vs : List Byte) (n : Nat) (s : State) : Prop where
  not_fatal : s.fatal = false
  not_busy : s.busy = false
  not_keyValid : s.keyValid = false
  count : s.ldcnt.toNat = n
  /-- Slot `j` holds card `j`. -/
  stored : ∀ (j : Nat) (hj : j < 28) (hv : j < vs.length), j < n → s.deck[j].toNat = vs[j].toNat
  /-- The load is open until the 28th card. -/
  opened : n < 28 → s.loading = true
  /-- The 28th card has completed it. -/
  completed : n = 28 → s.loading = false ∧ s.deckValid = true ∧ s.anchor = 27#5

/-- LOAD begins a load, whatever the state was (R80, R81). -/
theorem issue_load {s : State} (hf : s.fatal = false) (hl : s.loading = false)
    (hb : s.busy = false) (vs : List Byte) :
    ∃ t, issue 1 .load s = some (rspWord .ok 0#8, t) ∧ LoadProgress vs 0 t := by
  refine ⟨_, issue_one_of_exec hb (loadOpensALoad _ hf hl) rfl, ?_⟩
  exact {
    not_fatal := hf
    not_busy := hb
    not_keyValid := rfl
    count := rfl
    stored := fun j _ _ h => absurd h (Nat.not_lt_zero j)
    opened := fun _ => rfl
    completed := nofun }

theorem LoadProgress.fresh {vs : List Byte} {n : Nat} {s : State} (h : LoadProgress vs n s)
    (hn : n < vs.length) (hnodup : (vs.map BitVec.toNat).Nodup) (j : Fin 28)
    (hj : j.val < s.ldcnt.toNat) : s.deck[j].toNat ≠ vs[n].toNat := by
  rw [h.count] at hj
  intro e
  have hsame : vs[j.val].toNat = vs[n].toNat := (h.stored j j.isLt (hj.trans hn) hj).symm.trans e
  exact hj.ne ((hnodup.getElem_inj_iff (hi := by simpa using hj.trans hn)
    (hj := by simpa using hn)).mp (by simpa using hsame))

/-- The next card of a permutation of 1..28 advances the load (R82). -/
theorem LoadProgress.issue_card {vs : List Byte} {n : Nat} {s : State} (h : LoadProgress vs n s)
    (hperm : (vs.map BitVec.toNat).Perm (List.range' 1 28)) (hn : n < vs.length) (hn' : n < 28) :
    ∃ t, issue 1 (.card vs[n]) s = some (rspWord .ok (BitVec.ofNat 8 (n + 1)), t) ∧
      LoadProgress vs (n + 1) t := by
  have hrange : vs[n].toNat ∈ List.range' 1 28 :=
    hperm.subset (List.mem_map_of_mem (List.getElem_mem hn))
  obtain ⟨hlo, hhi⟩ := List.mem_range'_1.mp hrange
  have hfresh := h.fresh hn (hperm.nodup_iff.mpr List.nodup_range')
  have hlt : s.ldcnt.toNat < 28 := h.count ▸ hn'
  have hword : s.ldcnt.setWidth 8 + 1#8 = BitVec.ofNat 8 (n + 1) := by
    rw [← h.count]
    bv_omega
  have hexec := cardFillsTheNextSlot vs[n] { s with inputs := [], rsp := none } hlt h.not_fatal
    (h.opened hn') hlo (by omega) hfresh
  refine ⟨_, issue_one_of_exec h.not_busy hexec (by rw [hword]), ?_⟩
  exact {
    not_fatal := h.not_fatal
    not_busy := h.not_busy
    not_keyValid := h.not_keyValid
    count := (toNat_succ_of_lt hlt).trans (congrArg (· + 1) h.count)
    stored := fun j hj hv hjn => by
      rw [Vector.getElem_set]
      split
      case isTrue e =>
        obtain rfl : n = j := h.count.symm.trans e
        exact narrow_toNat (by omega)
      case isFalse e =>
        have hne : n ≠ j := fun hnj => e (h.count.trans hnj)
        exact h.stored j hj hv (by omega)
    opened := fun hopen => decide_eq_true (show s.ldcnt.toNat ≠ 27 by rw [h.count]; omega)
    completed := fun hdone => by simp [h.count, show n = 27 by omega] }

/-- After a complete load the deck is the cards in their order (R83, R84). -/
theorem LoadProgress.deck_eq {vs : List Byte} {s : State} (h : LoadProgress vs 28 s)
    (hlen : vs.length = 28) : s.deck.toList.map BitVec.toNat = vs.map BitVec.toNat := by
  refine List.ext_getElem (by simp [hlen]) fun j hj hv => ?_
  simpa using h.stored j (by simpa using hj) (by simpa using hv) (by simpa using hj)

/-- With the anchor in the last slot the deck reads in the order of its slots (R84). -/
theorem State.linear_of_anchor_last {s : State} (h : s.anchor = 27#5) :
    s.linear = s.deck.toList := by
  refine List.ext_getElem (by simp) fun j hj _ => ?_
  have hj : j < 28 := by simpa using hj
  have hslot : slotOf s.anchor (j + 1) = ⟨j, hj⟩ := by
    apply Fin.ext
    rw [slotOf_val, h]
    change (27 + (j + 1)) % 28 = j
    omega
  rw [s.linear_getElem j hj]
  simp only [State.cardAt, hslot]
  rfl

/-- Settles O19: LOAD begins the progress, each of the 28 cards advances it, and at 28 it is the
supplied deck. -/
theorem completeLoadEstablishesTheSuppliedDeck :
    Obligations.CompleteLoadEstablishesTheSuppliedDeck := by
  intro s vs hf hl hb hperm
  have hlen : vs.length = 28 := by simpa using hperm.length_eq
  obtain ⟨s0, hload, h0⟩ := issue_load hf hl hb vs
  obtain ⟨t, hcards, ht⟩ := issueAll_of_progress (k := 1) (is := vs.map Instr.card)
    (P := LoadProgress vs) (w := fun n => rspWord .ok (BitVec.ofNat 8 (n + 1)))
    (fun n hn s h => by
      have hn : n < vs.length := by simpa using hn
      rw [List.getElem_map]
      exact h.issue_card hperm hn (hlen ▸ hn)) h0
  rw [List.length_map, hlen] at hcards ht
  obtain ⟨hclosed, hvalid, hanchor⟩ := ht.completed rfl
  have hdeck := ht.deck_eq hlen
  exact ⟨t, issueAll_cons hload hcards, hvalid, hclosed, ht.not_fatal, ht.not_keyValid,
    BitVec.eq_of_toNat_eq ht.count, hanchor, hdeck, t.linear_of_anchor_last hanchor ▸ hdeck⟩

end Sys2Proof.Machine
end

section
/-! PROOFS of 41_deck_access.md: RDP, RDS and FIND with the gates open and an operand in range (R90,
R91, R92). Each answers OK with the card or position it reads and writes only the response port. -/

namespace Sys2Proof.Machine

section

variable {s : State}

/-! ### The three commands past their checks -/

/-- With the gates open a passed operand check leads to the command's own effect. -/
theorem cipherGates_of_check_passes (ho : s.GatesOpen) {c : Bool} (hc : c = true) (k r : Result) :
    cipherGates s (if c then k else r) = k := by
  rw [cipherGates_open ho, if_pos hc]

theorem exec_rdp_of_position (ho : s.GatesOpen) {p : Byte} (hlo : 1 ≤ p.toNat)
    (hhi : p.toNat ≤ 28) :
    exec (.rdp p) s = .next { s with rsp := some (rspWord .ok (zext (s.cardAt p.toNat))) } :=
  (cipherGates_of_check_passes ho (isCardOperand_iff.mpr ⟨hlo, hhi⟩) _ _).trans
    (answer_normal rfl _)

theorem exec_rds_of_slot (ho : s.GatesOpen) {n : Byte} (hn : n.toNat < 28) :
    exec (.rds n) s = .next { s with rsp := some (rspWord .ok (zext s.deck[n.toNat])) } :=
  calc exec (.rds n) s
    _ = dite _ _ _ := cipherGates_open ho _
    _ = answer .ok (zext s.deck[n.toNat]) s := dif_pos hn
    _ = _ := answer_normal rfl _

theorem exec_find_of_card (ho : s.GatesOpen) {v : Byte} (hlo : 1 ≤ v.toNat) (hhi : v.toNat ≤ 28) :
    exec (.find v) s =
      .next { s with rsp := some (rspWord .ok (findData (s.findCard (narrow v)))) } :=
  (cipherGates_of_check_passes ho (isCardOperand_iff.mpr ⟨hlo, hhi⟩) _ _).trans
    (answer_normal rfl _)

/-! ### find for an operand byte (R44, R64) -/

/-- A card is the narrowed operand exactly when their values agree. -/
theorem eq_narrow_iff {c : Card} {v : Byte} (hv : v.toNat ≤ 28) :
    c = narrow v ↔ c.toNat = v.toNat := by
  rw [← BitVec.toNat_inj, narrow_toNat hv]

theorem findCard_narrow_eq_some {v : Byte} (hv : v.toNat ≤ 28) {p : Nat} :
    s.findCard (narrow v) = some p ↔ 1 ≤ p ∧ p ≤ 28 ∧ (s.cardAt p).toNat = v.toNat ∧
      ∀ q, 1 ≤ q → q < p → (s.cardAt q).toNat ≠ v.toNat := by
  simp only [s.findCard_eq_some, Ne, eq_narrow_iff hv]

theorem findCard_narrow_eq_none {v : Byte} (hv : v.toNat ≤ 28) :
    s.findCard (narrow v) = none ↔ ∀ p, 1 ≤ p → p ≤ 28 → (s.cardAt p).toNat ≠ v.toNat := by
  simp only [s.findCard_eq_none, Ne, eq_narrow_iff hv]

end

/-! ### The statements about deck access -/

/-- Settles O23: the card at position `p` stands in the slot `(ANCHOR + p) mod 28`. -/
theorem rdpReturnsTheCardAtAPosition : Obligations.RdpReturnsTheCardAtAPosition :=
  fun _ _ ho hlo hhi => exec_rdp_of_position ho hlo hhi

/-- Settles O24: the operand is the slot index itself. -/
theorem rdsReturnsTheCardInASlot : Obligations.RdsReturnsTheCardInASlot :=
  fun _ _ hn ho => exec_rds_of_slot ho hn

/-- Settles O25: the search of R44 decides the data byte, which is `0x00` when it finds nothing. -/
theorem findReturnsTheFirstPosition : Obligations.FindReturnsTheFirstPosition := by
  intro v s ho hlo hhi
  rw [exec_find_of_card ho hlo hhi]
  refine ⟨fun p hp hp' hcard hfirst => ?present, fun habsent => ?absent⟩
  case present =>
    rw [(findCard_narrow_eq_some hhi).mpr ⟨hp, hp', hcard, hfirst⟩]
    rfl
  case absent =>
    rw [(findCard_narrow_eq_none hhi).mpr habsent]
    rfl

end Sys2Proof.Machine
end

section
/-! SUPPORT for 42_transform_steps.md. The transform steps and the extraction as commands with the
gates open (R112 to R116). -/

namespace Sys2Proof.Machine

section

variable {s : State}

theorem exec_transform_of_ok (ho : s.GatesOpen) {m : Transform} {t : State} (h : m.run s = .ok t) :
    exec m.instr s = .next { s with
      deck := t.deck, anchor := t.anchor, rsp := some (rspWord .ok 0x00#8) } := by
  rw [exec_transform, cipherGates_open ho, h, Transform.run_frame h]
  exact answer_normal rfl _

theorem exec_transform_of_error (ho : s.GatesOpen) {m : Transform} {v : Card}
    (h : m.run s = .error v) : exec m.instr s = .next { s with
      fatal := true, deckValid := false, phase := .fault, lastErr := 0xE#4,
      rsp := some (rspWord .errCorrupt (zext v)) } := by
  rw [exec_transform, cipherGates_open ho, h]
  exact answer_error (s := { s with fatal := true, deckValid := false, phase := .fault }) rfl _

theorem exec_ex_of_accepts (ho : s.GatesOpen) (ha : accepts s.candidate = true) :
    exec .ex s = .next { s with
      cand := s.candidate, key := s.candidate, keyValid := true,
      rsp := some (rspWord .ok (zext s.candidate)) } := by
  rw [exec, execEx, cipherGates_open ho, microEX_eq, ha]
  exact answer_normal rfl _

theorem exec_ex_of_not_accepts (ho : s.GatesOpen) (ha : accepts s.candidate = false) :
    exec .ex s = .next { s with
      cand := s.candidate, keyValid := false,
      rsp := some (rspWord .sentinel (zext s.candidate)) } := by
  rw [exec, execEx, cipherGates_open ho, microEX_eq, ha]
  exact answer_normal rfl _

end

end Sys2Proof.Machine
end

section
/-! PROOFS of 42_transform_steps.md: what each single step does, with the gates open and on any deck
(R101 to R109, R112 to R116), read at the positions of the linear view. -/

namespace Sys2Proof.Machine

/-- Settles O30: the candidate of EX is `State.candidate`, and `accepts` decides. -/
theorem extractionReportsTheCandidate : Obligations.ExtractionReportsTheCandidate := by
  rintro s c ho rfl
  exact ⟨fun h => exec_ex_of_accepts ho (decide_eq_true h),
    fun h => exec_ex_of_not_accepts ho (decide_eq_false (Nat.not_lt.mpr h))⟩

/-! ### JokerA and JokerB -/

theorem succPos_ne (p : Nat) : succPos p ≠ p := by
  unfold succPos
  omega

theorem succPos_succPos_ne (p : Nat) : succPos (succPos p) ≠ p := by
  unfold succPos
  omega

theorem succPos_succPos (p : Nat) : succPos (succPos p) = (p + 1) % 28 + 1 := by
  unfold succPos
  omega

/-- A card moves one position forward, and its successor one back. -/
theorem cardAt_exchange_succ (s : State) {p q : Nat} (hp : 1 ≤ p) (hp' : p ≤ 28) (hq : 1 ≤ q)
    (hq' : q ≤ 28) : (s.exchange p (succPos p)).cardAt q =
      if q = p then s.cardAt (succPos p) else if q = succPos p then s.cardAt p
      else s.cardAt q := by
  rw [cardAt_exchange s hp hp' (succPos_pos p) (succPos_le p) hq hq']
  have := succPos_ne p
  split_ifs
  · omega
  all_goals rfl

/-- A card moves two positions forward, and its next two successors one back each. -/
theorem cardAt_exchange_succ_succ (s : State) {p q : Nat} (hp : 1 ≤ p) (hp' : p ≤ 28) (hq : 1 ≤ q)
    (hq' : q ≤ 28) :
    ((s.exchange p (succPos p)).exchange (succPos p) (succPos (succPos p))).cardAt q =
      if q = p then s.cardAt (succPos p) else if q = succPos p then s.cardAt (succPos (succPos p))
      else if q = succPos (succPos p) then s.cardAt p else s.cardAt q := by
  rw [cardAt_exchange_succ _ (succPos_pos p) (succPos_le p) hq hq']
  simp only [cardAt_exchange_succ s hp hp', succPos_pos, succPos_le, hq, hq']
  by_cases h : q = p
  · subst h
    simp only [if_true, (succPos_ne q).symm, (succPos_succPos_ne q).symm, if_false]
  · simp only [h, if_false, succPos_ne, succPos_succPos_ne, if_true]
    split_ifs <;> rfl

/-- Settles O26: JokerA moves the card one position forward, or misses it. -/
theorem jokerAMovesOnePositionForward : Obligations.JokerAMovesOnePositionForward := by
  refine fun s ho => ⟨fun p h => ?present, fun h => ?missing⟩
  case missing => exact exec_transform_of_error (m := .ja) ho (microJA_of_none h)
  case present =>
    obtain ⟨hp, hp', hcard, -⟩ := (s.findCard_eq_some _ p).mp h
    refine ⟨_, exec_transform_of_ok (m := .ja) ho (microJA_of_some h), rfl, fun q hq hq' => ?_⟩
    exact hcard ▸ cardAt_exchange_succ s hp hp' hq hq'

/-- Settles O27: JokerB moves the card two positions forward, or misses it. -/
theorem jokerBMovesTwoPositionsForward : Obligations.JokerBMovesTwoPositionsForward := by
  refine fun s ho => ⟨fun p h => ?present, fun h => ?missing⟩
  case missing => exact exec_transform_of_error (m := .jb) ho (microJB_of_none h)
  case present =>
    obtain ⟨hp, hp', hcard, -⟩ := (s.findCard_eq_some _ p).mp h
    refine ⟨_, exec_transform_of_ok (m := .jb) ho (microJB_of_some h), rfl, fun q hq hq' => ?_⟩
    rw [← hcard, ← succPos_succPos]
    exact cardAt_exchange_succ_succ s hp hp' hq hq'

/-! ### Segments of the linear view -/

/-- The `n` cards from position `p` on. -/
def State.segment (s : State) (p n : Nat) : List Card := (List.range' p n).map s.cardAt

theorem State.linear_eq_segment (s : State) : s.linear = s.segment 1 28 := rfl

theorem State.segment_one (s : State) (p : Nat) : s.segment p 1 = [s.cardAt p] := rfl

theorem State.segment_append (s : State) (p m n : Nat) :
    s.segment p m ++ s.segment (p + m) n = s.segment p (m + n) := by
  rw [segment, segment, ← List.map_append, List.range'_append_1, segment]

theorem State.take_segment (s : State) (p : Nat) {m n : Nat} (h : m ≤ n) :
    (s.segment p n).take m = s.segment p m := by
  rw [segment, ← List.map_take, List.take_range'_of_length_ge h, segment]

theorem State.drop_segment (s : State) (p m n : Nat) :
    (s.segment p n).drop m = s.segment (p + m) (n - m) := by
  rw [segment, ← List.map_drop, List.drop_range', Nat.mul_one, segment]

/-- A block of cards that moves as one. -/
theorem State.segment_congr {s t : State} {p q n : Nat}
    (h : ∀ i, i < n → t.cardAt (q + i) = s.cardAt (p + i)) : t.segment q n = s.segment p n := by
  rw [segment, segment, List.range'_eq_map_range, List.range'_eq_map_range, List.map_map,
    List.map_map]
  exact List.map_congr_left fun i hi => h i (List.mem_range.mp hi)

/-! ### TripleCut -/

/-- The position from which TripleCut reads the card for position `q` (R103): the cards after `p2`,
then those from `p1` to `p2`, then those before `p1`. -/
def tripleCutView (p1 p2 q : Nat) : Nat :=
  if q ≤ 28 - p2 then q + p2
  else if q ≤ 29 - p1 then q + p1 + p2 - 29
  else q + p1 - 29

section

variable {p1 p2 q : Nat}

/-- The slots that R105 writes read as R103 says. -/
theorem tripleCutSource_eq_view (h1 : 1 ≤ p1) (h12 : p1 ≤ p2) (h2 : p2 ≤ 28) (hq : 1 ≤ q)
    (hq' : q ≤ 28) :
    tripleCutSource p1 p2 (succPos (p1 + p2 + q + 26)) = tripleCutView p1 p2 q := by
  unfold tripleCutSource tripleCutView succPos
  split_ifs <;> omega

theorem tripleCutView_after (hq : q ≤ 28 - p2) : tripleCutView p1 p2 q = q + p2 := if_pos hq

theorem tripleCutView_middle (hq : 28 - p2 < q) (hq' : q ≤ 29 - p1) :
    tripleCutView p1 p2 q = q + p1 + p2 - 29 := by
  rw [tripleCutView, if_neg (by omega), if_pos hq']

theorem tripleCutView_before (h12 : p1 ≤ p2) (hq : 29 - p1 < q) :
    tripleCutView p1 p2 q = q + p1 - 29 := by
  rw [tripleCutView, if_neg (by omega), if_neg (by omega)]

theorem cardAt_tripleCut_view (s : State) (h1 : 1 ≤ p1) (h12 : p1 ≤ p2) (h2 : p2 ≤ 28)
    (hq : 1 ≤ q) (hq' : q ≤ 28) :
    (s.tripleCut p1 p2).cardAt q = s.cardAt (tripleCutView p1 p2 q) := by
  rw [cardAt_tripleCut s h1 h2, tripleCutSource_eq_view h1 h12 h2 hq hq']

/-- TripleCut reads `after ++ middle ++ before` (R103). -/
theorem linear_tripleCut_eq (s : State) (h1 : 1 ≤ p1) (h12 : p1 ≤ p2) (h2 : p2 ≤ 28) :
    (s.tripleCut p1 p2).linear =
      s.linear.drop p2 ++ (s.linear.take p2).drop (p1 - 1) ++ s.linear.take (p1 - 1) := by
  have moved : ∀ p q n, q + n ≤ 29 → 1 ≤ q →
      (∀ i, i < n → tripleCutView p1 p2 (q + i) = p + i) →
      (s.tripleCut p1 p2).segment q n = s.segment p n := fun p q n hn hq h =>
    State.segment_congr fun i hi => by
      rw [cardAt_tripleCut_view s h1 h12 h2 (by omega) (by omega), h i hi]
  have after := moved (1 + p2) 1 (28 - p2) (by omega) (by omega) fun i hi => by
    rw [tripleCutView_after (by omega)]
    omega
  have middle := moved (1 + (p1 - 1)) (1 + (28 - p2)) (p2 - (p1 - 1)) (by omega) (by omega)
    fun i hi => by
      rw [tripleCutView_middle (by omega) (by omega)]
      omega
  have before := moved 1 (1 + (28 - p2 + (p2 - (p1 - 1)))) (p1 - 1) (by omega) (by omega)
    fun i hi => by
      rw [tripleCutView_before h12 (by omega)]
      omega
  have hall : 28 - p2 + (p2 - (p1 - 1)) + (p1 - 1) = 28 := by omega
  rw [s.linear_eq_segment, s.drop_segment, s.take_segment _ h2, s.drop_segment,
    s.take_segment _ (by omega), ← after, ← middle, State.segment_append, ← before,
    State.segment_append, hall, State.linear_eq_segment]

/-- The slots of the middle keep their cards (R104). -/
theorem tripleCut_middle (s : State) (h1 : 1 ≤ p1) (h2 : p2 ≤ 28) (hq : p1 ≤ q) (hq' : q ≤ p2) :
    (s.tripleCut p1 p2).deck[slotOf s.anchor q] = s.deck[slotOf s.anchor q] := by
  have kept : tripleCutSource p1 p2 q = q := by
    unfold tripleCutSource
    split_ifs <;> omega
  have hread := tripleCutDeck_eq_cardAt s (p1 := p1) h2 (slotOf s.anchor q)
  rw [posOf_slotOf s.anchor q (by omega) (by omega), kept] at hread
  exact hread

theorem tripleCutAnchor_toNat (a : Card) (h1 : 1 ≤ p1) (h2 : p2 ≤ 28) :
    ((tripleCutAnchor a p1 p2).toNat : Int) =
      ((a.toNat : Int) + ((p1 : Nat) - 1) - (28 - (p2 : Nat))) % 28 := by
  rw [tripleCutAnchor, BitVec.toNat_ofNat]
  omega

end

/-- Settles O28: the three parts, the anchor and the middle, or the sentinel that is missed first. -/
theorem tripleCutSwapsTheOuterSegments : Obligations.TripleCutSwapsTheOuterSegments := by
  refine fun s ho => ⟨fun pa pb ha hb => ?present, fun ha => ?missingA, fun ha hb => ?missingB⟩
  case missingA => exact exec_transform_of_error (m := .tc) ho (microTC_of_none ha)
  case missingB =>
    obtain ⟨pa, ha⟩ := Option.ne_none_iff_exists'.mp ha
    exact exec_transform_of_error (m := .tc) ho (microTC_of_some_none ha hb)
  case present =>
    obtain ⟨hpa, hpa', -, -⟩ := (s.findCard_eq_some _ pa).mp ha
    obtain ⟨hpb, hpb', -, -⟩ := (s.findCard_eq_some _ pb).mp hb
    have h1 : 1 ≤ min pa pb := le_min hpa hpb
    have h2 : max pa pb ≤ 28 := max_le hpa' hpb'
    exact ⟨_, exec_transform_of_ok (m := .tc) ho (microTC_of_some ha hb), rfl,
      linear_tripleCut_eq s h1 min_le_max h2, tripleCutAnchor_toNat s.anchor h1 h2,
      fun q => tripleCut_middle s h1 h2⟩

/-! ### CountCut -/

/-- CountCut reads the cards after the counted ones, the counted ones, and the anchor (R107). -/
theorem linear_microCC_eq (s : State) : (microCC s).linear =
    (s.linear.take 27).drop (countOf (s.cardAt 28)) ++ s.linear.take (countOf (s.cardAt 28)) ++
      [s.cardAt 28] := by
  have hread := fun {q} (hq : 1 ≤ q) (hq' : q ≤ 28) => cardAt_microCC s hq hq'
  have hn := countOf_le (s.cardAt 28)
  generalize countOf (s.cardAt 28) = n at hread hn ⊢
  have moved : (microCC s).segment 1 (27 - n) = s.segment (1 + n) (27 - n) :=
    State.segment_congr fun i hi => by
      rw [hread (by omega) (by omega), countCutSource, if_neg (by omega)]
      congr 1
      omega
  have counted : (microCC s).segment (1 + (27 - n)) n = s.segment 1 n :=
    State.segment_congr fun i hi => by
      rw [hread (by omega) (by omega), countCutSource, if_neg (by omega)]
      congr 1
      omega
  have anchor : (microCC s).segment 28 1 = [s.cardAt 28] := by
    rw [State.segment_one, hread (by decide) le_rfl]
    rfl
  rw [s.linear_eq_segment, s.take_segment _ (by decide), s.drop_segment,
    s.take_segment _ (by omega), ← moved, ← counted, ← anchor, State.segment_append,
    Nat.sub_add_cancel hn]
  exact ((microCC s).segment_append 1 27 1).symm

theorem microCC_anchor_slot (s : State) :
    (microCC s).deck[slotOf s.anchor 28] = s.deck[slotOf s.anchor 28] := by
  rw [microCC_deck, countCutDeck_getElem, if_pos (posOf_slotOf s.anchor 28 (by decide) le_rfl)]

/-- Settles O29: CountCut has no error. -/
theorem countCutRotatesAllButTheAnchor : Obligations.CountCutRotatesAllButTheAnchor := by
  intro s ho
  have hexec := exec_transform_of_ok (m := .cc) ho (Transform.run_cc s)
  have hanchor := microCC_anchor s
  have hlinear := linear_microCC_eq s
  have hslot := microCC_anchor_slot s
  generalize microCC s = t at hexec hanchor hlinear hslot
  exact ⟨_, hexec, by rw [hanchor]; rfl, hlinear, hslot⟩

end Sys2Proof.Machine
end

section
/-! PROOFS of 42_transform_steps.md: the transform steps on complete decks. They never miss a sentinel
(R108, R111), and each is undone on the linear view (R106, R111). -/

namespace Sys2Proof.Machine

section

variable {s s' t t' u : State}

/-! ### Complete decks stay complete -/

theorem DeckComplete.run_ok (h : DeckComplete s.deck) (m : Transform) :
    ∃ t, m.run s = .ok t ∧ DeckComplete t.deck := by
  cases e : m.run s with
  | error v => exact absurd e (h.transform_ne_error m v)
  | ok t => exact ⟨t, rfl, h.transform e⟩

theorem fourSteps_of_ok {s1 s2 s3 : State} (h1 : microJA s = .ok s1) (h2 : microJB s1 = .ok s2)
    (h3 : microTC s2 = .ok s3) : fourSteps s = .ok (microCC s3) := by
  simp only [fourSteps, h1, h2, h3]

/-- A card of a complete deck is found where it is. -/
theorem DeckComplete.findCard_of_cardAt (h : DeckComplete s.deck) {v : Card} {p : Nat} (hp : 1 ≤ p)
    (hp' : p ≤ 28) (e : s.cardAt p = v) : s.findCard v = some p :=
  (s.findCard_eq_some v p).mpr ⟨hp, hp', e, fun q hq hqp e' =>
    hqp.ne (h.cardAt_inj hq (by omega) hp hp' (e'.trans e.symm))⟩

/-- Complete decks that read the same hold a card at the same position. -/
theorem DeckComplete.same_position (ht : DeckComplete t.deck) (h : t.linear = t'.linear) {v : Card}
    {p q : Nat} (hp : 1 ≤ p) (hp' : p ≤ 28) (hq : 1 ≤ q) (hq' : q ≤ 28) (e : t.cardAt p = v)
    (e' : t'.cardAt q = v) : p = q :=
  ht.cardAt_inj hp hp' hq hq' (e.trans (e'.symm.trans (cardAt_congr h hq hq').symm))

/-! ### JokerA and JokerB are undone by the same exchanges -/

theorem swapSlots_swapSlots (d : Deck) (a b : Fin 28) : swapSlots (swapSlots d a b) a b = d := by
  have hread : ∀ j : Fin 28, (swapSlots (swapSlots d a b) a b)[j] = d[j] := fun j => by
    simp only [swapSlots_getElem, if_true]
    split_ifs <;> simp_all
  exact Vector.ext fun i hi => hread ⟨i, hi⟩

theorem exchange_exchange (s : State) (p q : Nat) : (s.exchange p q).exchange p q = s := by
  simp only [State.exchange, swapSlots_swapSlots]

theorem linear_of_exchange {p q : Nat} (hp : 1 ≤ p) (hp' : p ≤ 28) (hq : 1 ≤ q) (hq' : q ≤ 28)
    (h : (s.exchange p q).linear = (s'.exchange p q).linear) : s.linear = s'.linear := by
  have back := linear_exchange h hp hp' hq hq'
  rwa [exchange_exchange, exchange_exchange] at back

theorem succPos_inj {p q : Nat} (hp : 1 ≤ p) (hp' : p ≤ 28) (hq : 1 ≤ q) (hq' : q ≤ 28)
    (h : succPos p = succPos q) : p = q := by
  unfold succPos at h
  omega

theorem microJA_eq_ok (h : microJA s = .ok t) : ∃ p, 1 ≤ p ∧ p ≤ 28 ∧
    t = s.exchange p (succPos p) ∧ t.cardAt (succPos p) = 27#5 := by
  cases e : s.findCard 27#5 with
  | none => nomatch (microJA_of_none e).symm.trans h
  | some p =>
    obtain ⟨hp, hp', hcard, -⟩ := (s.findCard_eq_some _ p).mp e
    obtain rfl := Except.ok.inj ((microJA_of_some e).symm.trans h)
    refine ⟨p, hp, hp', rfl, ?_⟩
    rw [cardAt_exchange_succ s hp hp' (succPos_pos p) (succPos_le p), if_neg (succPos_ne p),
      if_pos rfl, hcard]

theorem microJB_eq_ok (h : microJB s = .ok t) : ∃ p, 1 ≤ p ∧ p ≤ 28 ∧
    t = (s.exchange p (succPos p)).exchange (succPos p) (succPos (succPos p)) ∧
    t.cardAt (succPos (succPos p)) = 28#5 := by
  cases e : s.findCard 28#5 with
  | none => nomatch (microJB_of_none e).symm.trans h
  | some p =>
    obtain ⟨hp, hp', hcard, -⟩ := (s.findCard_eq_some _ p).mp e
    obtain rfl := Except.ok.inj ((microJB_of_some e).symm.trans h)
    refine ⟨p, hp, hp', rfl, ?_⟩
    rw [cardAt_exchange_succ_succ s hp hp' (succPos_pos _) (succPos_le _),
      if_neg (succPos_succPos_ne p), if_neg (succPos_ne _), if_pos rfl, hcard]

theorem microJA_injective (hs : DeckComplete s.deck) (e : microJA s = .ok t)
    (e' : microJA s' = .ok t') (h : t.linear = t'.linear) : s.linear = s'.linear := by
  have ht : DeckComplete t.deck := hs.transform (m := .ja) e
  obtain ⟨p, hp, hp', rfl, hcard⟩ := microJA_eq_ok e
  obtain ⟨q, hq, hq', rfl, hcard'⟩ := microJA_eq_ok e'
  have hsucc := ht.same_position h (succPos_pos p) (succPos_le p) (succPos_pos q) (succPos_le q)
    hcard hcard'
  obtain rfl := succPos_inj hp hp' hq hq' hsucc
  exact linear_of_exchange hp hp' (succPos_pos p) (succPos_le p) h

theorem microJB_injective (hs : DeckComplete s.deck) (e : microJB s = .ok t)
    (e' : microJB s' = .ok t') (h : t.linear = t'.linear) : s.linear = s'.linear := by
  have ht : DeckComplete t.deck := hs.transform (m := .jb) e
  obtain ⟨p, hp, hp', rfl, hcard⟩ := microJB_eq_ok e
  obtain ⟨q, hq, hq', rfl, hcard'⟩ := microJB_eq_ok e'
  have hsucc := ht.same_position h (succPos_pos _) (succPos_le _) (succPos_pos _) (succPos_le _)
    hcard hcard'
  obtain rfl := succPos_inj hp hp' hq hq'
    (succPos_inj (succPos_pos p) (succPos_le p) (succPos_pos q) (succPos_le q) hsucc)
  exact linear_of_exchange hp hp' (succPos_pos p) (succPos_le p)
    (linear_of_exchange (succPos_pos _) (succPos_le _) (succPos_pos _) (succPos_le _) h)

/-! ### TripleCut is its own inverse (R106) -/

section

variable {p1 p2 q : Nat}

theorem tripleCutView_range (h1 : 1 ≤ p1) (h12 : p1 ≤ p2) (h2 : p2 ≤ 28) (hq : 1 ≤ q)
    (hq' : q ≤ 28) : 1 ≤ tripleCutView p1 p2 q ∧ tripleCutView p1 p2 q ≤ 28 := by
  unfold tripleCutView
  split_ifs <;> omega

theorem tripleCutView_tripleCutView (h1 : 1 ≤ p1) (h12 : p1 ≤ p2) (h2 : p2 ≤ 28) (hq : 1 ≤ q)
    (hq' : q ≤ 28) : tripleCutView p1 p2 (tripleCutView (29 - p2) (29 - p1) q) = q := by
  unfold tripleCutView
  split_ifs <;> omega

/-- The second cut is at the positions to which the first has moved the two sentinels. -/
theorem linear_tripleCut_tripleCut (s : State) (h1 : 1 ≤ p1) (h12 : p1 ≤ p2) (h2 : p2 ≤ 28) :
    ((s.tripleCut p1 p2).tripleCut (29 - p2) (29 - p1)).linear = s.linear := by
  rw [State.linear_eq_iff]
  intro q hq hq'
  have h1' : 1 ≤ 29 - p2 := by omega
  have h12' : 29 - p2 ≤ 29 - p1 := by omega
  have h2' : 29 - p1 ≤ 28 := by omega
  obtain ⟨hlo, hhi⟩ := tripleCutView_range h1' h12' h2' hq hq'
  rw [cardAt_tripleCut_view _ h1' h12' h2' hq hq', cardAt_tripleCut_view s h1 h12 h2 hlo hhi,
    tripleCutView_tripleCutView h1 h12 h2 hq hq']

end

/-- TripleCut moves the sentinel at `pa` to the mirror image of the position `pb` of the other. -/
theorem cardAt_tripleCut_sentinel (s : State) {pa pb p1 p2 : Nat} (hsum : p1 + p2 = pa + pb)
    (h1 : 1 ≤ p1) (h12 : p1 ≤ p2) (h2 : p2 ≤ 28) (hlo : p1 ≤ pb) (hhi : pb ≤ p2) :
    (s.tripleCut p1 p2).cardAt (29 - pb) = s.cardAt pa := by
  rw [cardAt_tripleCut_view s h1 h12 h2 (by omega) (by omega),
    tripleCutView_middle (by omega) (by omega)]
  congr 1
  omega

theorem microTC_eq_ok (h : microTC s = .ok t) : ∃ pa pb, s.findCard 27#5 = some pa ∧
    s.findCard 28#5 = some pb ∧ t = s.tripleCut (min pa pb) (max pa pb) := by
  obtain ⟨-, e⟩ | ⟨-, -, e⟩ | ⟨pa, pb, ha, hb, -⟩ := microTC_cases s
  · nomatch e.symm.trans h
  · nomatch e.symm.trans h
  · exact ⟨pa, pb, ha, hb, Except.ok.inj (h.symm.trans (microTC_of_some ha hb))⟩

theorem microTC_microTC (hs : DeckComplete s.deck) (e : microTC s = .ok t)
    (e' : microTC t = .ok u) : u.linear = s.linear := by
  have ht : DeckComplete t.deck := hs.transform (m := .tc) e
  obtain ⟨pa, pb, ha, hb, rfl⟩ := microTC_eq_ok e
  obtain ⟨hpa, hpa', hcard, -⟩ := (s.findCard_eq_some _ pa).mp ha
  obtain ⟨hpb, hpb', hcard', -⟩ := (s.findCard_eq_some _ pb).mp hb
  have h1 : 1 ≤ min pa pb := le_min hpa hpb
  have h2 : max pa pb ≤ 28 := max_le hpa' hpb'
  have ha' := ht.findCard_of_cardAt (v := 27#5) (p := 29 - pb) (by omega) (by omega)
    ((cardAt_tripleCut_sentinel s (min_add_max pa pb) h1 min_le_max h2 (min_le_right ..)
      (le_max_right ..)).trans hcard)
  have hb' := ht.findCard_of_cardAt (v := 28#5) (p := 29 - pa) (by omega) (by omega)
    ((cardAt_tripleCut_sentinel s ((min_add_max pa pb).trans (add_comm ..)) h1 min_le_max h2
      (min_le_left ..) (le_max_left ..)).trans hcard')
  obtain rfl := Except.ok.inj ((microTC_of_some ha' hb').symm.trans e')
  have hmin : min (29 - pb) (29 - pa) = 29 - max pa pb := by omega
  have hmax : max (29 - pb) (29 - pa) = 29 - min pa pb := by omega
  rw [hmin, hmax, linear_tripleCut_tripleCut s h1 min_le_max h2]

theorem microTC_injective (hs : DeckComplete s.deck) (hs' : DeckComplete s'.deck)
    (e : microTC s = .ok t) (e' : microTC s' = .ok t') (h : t.linear = t'.linear) :
    s.linear = s'.linear := by
  obtain ⟨u, eu, -⟩ := (hs.transform (m := .tc) e).run_ok .tc
  obtain ⟨u', eu', -⟩ := (hs'.transform (m := .tc) e').run_ok .tc
  have hrun := Transform.run_sameRun .tc h
  rw [eu, eu'] at hrun
  cases hrun with
  | ok _ _ hu => exact (microTC_microTC hs e eu).symm.trans (hu.trans (microTC_microTC hs' e' eu'))

/-! ### CountCut is undone by the opposite rotation -/

theorem countCutSource_countCutSource {n q : Nat} (hn : n ≤ 27) (hq : 1 ≤ q) (hq' : q ≤ 28) :
    countCutSource n (countCutSource (27 - n) q) = q := by
  unfold countCutSource
  split_ifs <;> omega

/-- The anchor card, which gives the count, stays (R107). -/
theorem cardAt_microCC_anchor (s : State) : (microCC s).cardAt 28 = s.cardAt 28 := by
  rw [cardAt_microCC s (by decide) le_rfl, countCutSource, if_pos rfl]

theorem microCC_injective (h : (microCC s).linear = (microCC s').linear) :
    s.linear = s'.linear := by
  have hanchor : s.cardAt 28 = s'.cardAt 28 := by
    rw [← cardAt_microCC_anchor s, ← cardAt_microCC_anchor s']
    exact cardAt_congr h (by decide) le_rfl
  have hn := countOf_le (s.cardAt 28)
  rw [State.linear_eq_iff]
  intro q hq hq'
  have hlo := countCutSource_pos (27 - countOf (s.cardAt 28)) q
  have hhi := countCutSource_le (27 - countOf (s.cardAt 28)) q
  have same := cardAt_congr h hlo hhi
  rwa [cardAt_microCC s hlo hhi, cardAt_microCC s' hlo hhi, ← hanchor,
    countCutSource_countCutSource hn hq hq'] at same

end

/-- Settles O31: no sentinel is missing on a complete deck, and each step only moves its cards. -/
theorem fourStepsKeepACompleteDeck : Obligations.FourStepsKeepACompleteDeck := by
  intro s h
  obtain ⟨s1, e1, h1⟩ := h.run_ok .ja
  obtain ⟨s2, e2, h2⟩ := h1.run_ok .jb
  obtain ⟨s3, e3, h3⟩ := h2.run_ok .tc
  exact ⟨⟨_, fourSteps_of_ok e1 e2 e3, h3.countCut⟩, h.run_ok .ja, h.run_ok .jb, h.run_ok .tc,
    h.countCut, microEX_deck s⟩

/-- Settles O32: JokerA and JokerB leave their card where it tells which exchanges to undo, TripleCut
undoes itself, and CountCut leaves the card that gives the count. -/
theorem eachStepIsUndoneOnLinearViews : Obligations.EachStepIsUndoneOnLinearViews :=
  fun _ _ hs hs' => ⟨fun _ _ => microJA_injective hs, fun _ _ => microJB_injective hs,
    fun _ _ => microTC_injective hs hs', microCC_injective, fun _ _ => microTC_microTC hs⟩

end Sys2Proof.Machine
end

section
/-! PROOFS of 42_transform_steps.md: the single steps and the key loop (R116, R120). A host that issues
the command of each phase follows the loop micro-step by micro-step. -/

namespace Sys2Proof.Machine

/-! ### Transform steps on equal layouts -/

/-- DECK and ANCHOR agree, said by the linear view and ANCHOR. -/
structure SameLayout (s s' : State) : Prop where
  view : s.linear = s'.linear
  anchor : s.anchor = s'.anchor

section

variable {s s' t t' : State}

theorem SameLayout.deck (h : SameLayout s s') : s.deck = s'.deck := by
  refine Vector.ext fun j hj => ?_
  have hread := cardAt_congr h.view (posOf_pos s.anchor ⟨j, hj⟩) (posOf_le _ _)
  have hread' := deck_eq_cardAt s' ⟨j, hj⟩
  rw [← deck_eq_cardAt, h.anchor, ← hread'] at hread
  exact hread

theorem microTC_anchor_congr (h : SameLayout s s') (e : microTC s = .ok t)
    (e' : microTC s' = .ok t') : t.anchor = t'.anchor := by
  have hfind := State.findCard_congr s s' h.view
  obtain ⟨_, r⟩ | ⟨_, _, r⟩ | ⟨pa, pb, ha, hb, r⟩ := microTC_cases s
  · nomatch r.symm.trans e
  · nomatch r.symm.trans e
  · have r' := microTC_of_some ((hfind _).symm.trans ha) ((hfind _).symm.trans hb)
    rw [← Except.ok.inj (r.symm.trans e), ← Except.ok.inj (r'.symm.trans e')]
    exact congrArg (tripleCutAnchor · _ _) h.anchor

theorem SameLayout.anchor_of_run (h : SameLayout s s') {m : Transform} (e : m.run s = .ok t)
    (e' : m.run s' = .ok t') : t.anchor = t'.anchor := by
  cases m with
  | tc => exact microTC_anchor_congr h e e'
  | ja | jb | cc =>
    have still : t.anchor = s.anchor := (Transform.run_anchor e).resolve_right nofun
    have still' : t'.anchor = s'.anchor := (Transform.run_anchor e').resolve_right nofun
    rw [still, still', h.anchor]

/-- A transform step that succeeds does so on every state of the same layout, with one result. -/
theorem SameLayout.run (h : SameLayout s s') {m : Transform} (e' : m.run s' = .ok t') :
    ∃ t, m.run s = .ok t ∧ SameLayout t t' := by
  have hrun := m.run_sameRun h.view
  generalize e : m.run s = r at hrun
  rw [e'] at hrun
  cases hrun with
  | ok t _ hview => exact ⟨t, rfl, hview, h.anchor_of_run e e'⟩

end

/-! ### The host that follows the loop -/

/-- The commands of the cycle that are left from a phase on (R108, R116). -/
def commandsFrom : Phase → List Instr
  | .ja => [.ja, .jb, .tc, .cc, .ex]
  | .jb => [.jb, .tc, .cc, .ex]
  | .tc => [.tc, .cc, .ex]
  | .cc => [.cc, .ex]
  | .ex => [.ex]
  | .idle => []
  | .fault => []

theorem commandsFrom_phase (m : Transform) :
    commandsFrom m.phase = m.instr :: commandsFrom m.nextPhase := by
  cases m <;> rfl

/-- The commands left from phase `p` on when `n` more cycles follow. -/
def commandsLeft (p : Phase) (n : Nat) : List Instr :=
  commandsFrom p ++ (List.replicate n (commandsFrom .ja)).flatten

theorem commandsLeft_phase (m : Transform) (n : Nat) :
    commandsLeft m.phase n = m.instr :: commandsLeft m.nextPhase n := by
  rw [commandsLeft, commandsFrom_phase]
  rfl

theorem commandsLeft_ex_succ (n : Nat) :
    commandsLeft .ex (n + 1) = .ex :: commandsLeft .ja n := rfl

theorem commandsLeft_ja (n : Nat) :
    commandsLeft .ja n = (List.replicate (n + 1) [Instr.ja, .jb, .tc, .cc, .ex]).flatten := rfl

/-- The host state `h`, at rest between two commands, and the state `l` of a KEY loop have the same
deck. -/
structure Follows (h l : State) : Prop where
  idle : h.phase = .idle
  gates : h.GatesOpen
  layout : SameLayout h l
  inputs : l.inputs = []
  silent : l.rsp = none
  mode : l.mode = .keyonly

/-- What KEY and the single steps write, but for RETRY, agrees (R116). -/
structure SameKey (h l : State) : Prop where
  layout : SameLayout h l
  key : h.key = l.key
  cand : h.cand = l.cand
  keyValid : h.keyValid = l.keyValid

section

variable {h l : State} (hf : Follows h l)
include hf

theorem Follows.not_busy : h.busy = false := State.busy_eq_false_iff.mpr (.inl hf.idle)

/-- The host issues the transform step that the loop has run (R112 to R115). -/
theorem Follows.transform {m : Transform} {t : State} (e : m.run l = .ok t) :
    ∃ u, issue 1 m.instr h = some (rspWord .ok 0x00#8, u) ∧ u.retry = h.retry ∧
      Follows u { t with phase := m.nextPhase } := by
  have layout : SameLayout { h with inputs := [], rsp := none } l :=
    ⟨hf.layout.view, hf.layout.anchor⟩
  obtain ⟨u, e', hlayout⟩ := layout.run e
  have exec := exec_transform_of_ok (s := { h with inputs := [], rsp := none }) hf.gates e'
  refine ⟨_, issue_one_of_exec hf.not_busy exec rfl, rfl, hf.idle, hf.gates,
    ⟨hlayout.view, hlayout.anchor⟩, ?_, ?_, ?_⟩
  all_goals rw [Transform.run_frame e]
  exacts [hf.inputs, hf.silent, hf.mode]

theorem Follows.candidate :
    { h with inputs := [], rsp := none }.candidate = l.candidate :=
  State.candidate_congr (s := { h with inputs := [], rsp := none }) hf.layout.view

/-- EX answers the key of the loop's completion (R116, R124). -/
theorem Follows.accept (ha : accepts l.candidate = true) :
    ∃ u, issue 1 .ex h = some (rspWord .ok (microEX l).completionData, u) ∧ u.retry = h.retry ∧
      SameKey u (microEX l) := by
  have hcand := hf.candidate
  have e := exec_ex_of_accepts (s := { h with inputs := [], rsp := none }) hf.gates (hcand ▸ ha)
  have hdata : (microEX l).completionData = zext l.candidate := by
    simp [State.completionData, hf.mode, ha]
  rw [hdata, ← hcand]
  refine ⟨_, issue_one_of_exec hf.not_busy e rfl, rfl, ?_⟩
  rw [microEX_eq, ha, hcand]
  exact ⟨⟨hf.layout.view, hf.layout.anchor⟩, rfl, rfl, rfl⟩

/-- EX reports the candidate that the loop discards, and the next cycle begins (R116, R123). -/
theorem Follows.discard (ha : accepts l.candidate = false) (r : Byte) :
    ∃ w u, issue 1 .ex h = some (w, u) ∧ u.retry = h.retry ∧
      Follows u { microEX l with retry := r, phase := .ja } := by
  have e := exec_ex_of_not_accepts (s := { h with inputs := [], rsp := none }) hf.gates
    (hf.candidate ▸ ha)
  refine ⟨_, _, issue_one_of_exec hf.not_busy e rfl, rfl, ?_⟩
  rw [microEX_eq]
  exact ⟨hf.idle, hf.gates, ⟨hf.layout.view, hf.layout.anchor⟩, hf.inputs, hf.silent, hf.mode⟩

end

/-- The run of the single steps from the loop state `l` on: it ends like the loop, in `t`, after as
many more cycles as the loop discards candidates. -/
def Reproduces (h l t : State) (w : RspWord) : Prop :=
  ∃ n ws u, issueAll 1 (commandsLeft l.phase n) h = some (ws, u) ∧ ws.getLast? = some w ∧
    SameKey u t ∧ u.retry = h.retry ∧ t.retry.toNat = min 255 (l.retry.toNat + n)

/-- The host issues one command while the loop takes one micro-step, from `l` to `l'`. -/
theorem Reproduces.cons {h h' l l' t : State} {w w' : RspWord} {i : Instr}
    (hi : issue 1 i h = some (w', h')) (hr : h'.retry = h.retry)
    (hleft : ∀ n, ∃ n', commandsLeft l.phase n' = i :: commandsLeft l'.phase n ∧
      min 255 (l.retry.toNat + n') = min 255 (l'.retry.toNat + n))
    (hrest : Reproduces h' l' t w) : Reproduces h l t w := by
  obtain ⟨n, ws, u, hall, hlast, hkey, hretry, hcount⟩ := hrest
  obtain ⟨n', hcommands, hcount'⟩ := hleft n
  exact ⟨n', w' :: ws, u, hcommands ▸ issueAll_cons hi hall, List.mem_getLast?_cons hlast, hkey,
    hretry.trans hr, hcount.trans hcount'.symm⟩

/-- EX accepts the candidate and the loop completes. -/
theorem Follows.reproduces_completion {h l : State} (hf : Follows h l) (hp : l.phase = .ex)
    (ha : accepts l.candidate = true) :
    Reproduces h l ({ microEX l with phase := .idle }.respond .ok (microEX l).completionData)
      (rspWord .ok (microEX l).completionData) := by
  obtain ⟨u, hi, hr, hlayout, hkey, hcand, hvalid⟩ := hf.accept ha
  have hcount : (microEX l).retry.toNat = min 255 (l.retry.toNat + 0) := by
    rw [microEX_retry]
    omega
  exact ⟨0, [_], u, hp ▸ issueAll_cons hi rfl, rfl,
    ⟨⟨hlayout.view, hlayout.anchor⟩, hkey, hcand, hvalid⟩, hr, hcount⟩

/-- One command of the host for each micro-step of the loop, until the loop responds (R116, R120). -/
theorem Follows.reproduces {k : Nat} {h l t : State} {w : RspWord} (hf : Follows h l)
    (hb : l.busy = true) (hrun : steps k l = .next t) (hw : t.rsp = some w)
    (hfatal : t.fatal = false) : Reproduces h l t w := by
  induction k generalizing h l with
  | zero =>
    obtain rfl : l = t := Host.Outcome.next.inj hrun
    nomatch hf.silent.symm.trans hw
  | succ k ih =>
    rw [steps_succ_of_next (step_running hf.inputs hb)] at hrun
    have effect := microStep_effect hb
    generalize microStep l = l' at effect hrun
    cases effect with
    | transforms m u hp hm =>
      obtain ⟨h', hi, hr, hf'⟩ := hf.transform hm
      have hretry : u.retry = l.retry := by rw [Transform.run_frame hm]
      refine .cons hi hr (fun n => ⟨n, ?_, ?_⟩) (ih hf' m.running_nextPhase hrun)
      · rw [hp, commandsLeft_phase]
      · rw [hretry]
    | corrupts m v =>
      rw [steps_rest (by simpa using hf.inputs) rfl] at hrun
      obtain rfl := Host.Outcome.next.inj hrun
      nomatch hfatal
    | completes hp ha =>
      rw [steps_rest (by simpa using hf.inputs) rfl] at hrun
      obtain rfl := Host.Outcome.next.inj hrun
      obtain rfl := Option.some.inj hw
      exact hf.reproduces_completion hp ha
    | retries hp ha =>
      obtain ⟨w', h', hi, hr, hf'⟩ := hf.discard ha (retrySucc l.retry)
      refine .cons hi hr (fun n => ⟨n + 1, ?_, ?_⟩) (ih hf' rfl hrun)
      · rw [hp, commandsLeft_ex_succ]
      · rw [retrySucc_toNat]
        omega

/-! ### From the command KEY to its loop (R121, R126) -/

/-- A command that was answered within `k` steps left the response that the host took. -/
theorem issue_eq_some {k : Nat} {i : Instr} {s u : State} {w : RspWord}
    (h : issue k i s = some (w, u)) :
    ∃ t, steps k { s with inputs := [.offer (encode i)], rsp := none } = .next t ∧
      t.rsp = some w ∧ u = { t with rsp := none } := by
  unfold issue at h
  split at h
  case h_1 t hrun =>
    split at h
    case h_1 w' hw =>
      obtain ⟨rfl, rfl⟩ := Prod.mk.inj (Option.some.inj h)
      exact ⟨t, hrun, hw, rfl⟩
    case h_2 => nomatch h
  all_goals nomatch h

/-- The state of the loop that KEY has just entered. -/
def State.keyEntry (s : State) : State :=
  { s with inputs := [], rsp := none }.loopEntry .keyonly .index 0#5

theorem Follows.keyEntry {s : State} (hidle : s.phase = .idle) (ho : s.GatesOpen) :
    Follows s s.keyEntry :=
  ⟨hidle, ho, ⟨rfl, rfl⟩, rfl, rfl, rfl⟩

theorem step_key {s : State} (hidle : s.phase = .idle) (ho : s.GatesOpen) :
    step { s with inputs := [.offer (encode .key)], rsp := none } = .next s.keyEntry := by
  have hb : s.busy = false := State.busy_eq_false_iff.mpr (.inl hidle)
  calc step { s with inputs := [.offer (encode .key)], rsp := none }
    _ = runWord (encode .key) { s with inputs := [], rsp := none } :=
      step_of_offer rfl (State.cmdReady_iff.mpr ⟨rfl, hb, rfl⟩)
    _ = execKey { s with inputs := [], rsp := none } := runWord_of_ok (decode_encode .key)
    _ = _ := cipherGates_open (s := { s with inputs := [], rsp := none }) ho _

/-- A KEY that was answered has entered its loop, and the loop has responded. -/
theorem issue_key {k : Nat} {s u : State} {w : RspWord} (hidle : s.phase = .idle)
    (ho : s.GatesOpen) (h : issue k .key s = some (w, u)) :
    ∃ j t, steps j s.keyEntry = .next t ∧ t.rsp = some w ∧ u = { t with rsp := none } := by
  obtain ⟨t, hrun, hw, hu⟩ := issue_eq_some h
  cases k with
  | zero =>
    obtain rfl := Host.Outcome.next.inj hrun
    nomatch hw
  | succ j =>
    rw [steps_succ_of_next (step_key hidle ho)] at hrun
    exact ⟨j, t, hrun, hw, hu⟩

/-- Settles O42: `Follows.reproduces` from the entry of the loop on; below its saturation RETRY is the
number of discarded candidates. -/
theorem singleStepsReproduceOneKey : Obligations.SingleStepsReproduceOneKey := by
  intro k s u w hready ho hkey hfatal hretry
  obtain ⟨hidle, -, -⟩ := hready
  obtain ⟨j, t, hrun, hw, rfl⟩ := issue_key hidle ho hkey
  obtain ⟨n, ws, v, hall, hlast, hsame, hkept, hcount⟩ :=
    (Follows.keyEntry hidle ho).reproduces rfl hrun hw hfatal
  have hn : n = t.retry.toNat := by
    change t.retry.toNat = min 255 (0 + n) at hcount
    change t.retry.toNat < 255 at hretry
    omega
  exact ⟨ws, v, hn ▸ hall, hlast, hsame.layout.deck, hsame.layout.anchor, hsame.key, hsame.cand,
    hsame.keyValid, hkept⟩

end Sys2Proof.Machine
end

section
/-! PROOFS of 43_key_loop.md: the commands that enter the key loop (R121, R126, R134 to R137), and
the single micro-steps of the loop (R122 to R124, R128). -/

namespace Sys2Proof.Machine

/-! ### The latched letter (R64, R133) -/

theorem narrow_eq_ofNat (b : Byte) : narrow b = BitVec.ofNat 5 b.toNat :=
  (BitVec.ofNat_toNat 5 b).symm

section

variable {c : Byte}

theorem isUpper_iff : isUpper c = true ↔ 0x41 ≤ c.toNat ∧ c.toNat ≤ 0x5A := decide_eq_true_iff

theorem isLower_iff : isLower c = true ↔ 0x61 ≤ c.toNat ∧ c.toNat ≤ 0x7A := decide_eq_true_iff

theorem letterIndex_of_upper (hlo : 0x41 ≤ c.toNat) (hhi : c.toNat ≤ 0x5A) :
    letterIndex c = BitVec.ofNat 5 (c.toNat - 0x40) := by
  have hle : 0x40#8 ≤ c := BitVec.le_def.mpr (Nat.le_of_succ_le hlo)
  rw [letterIndex, if_pos (isUpper_iff.mpr ⟨hlo, hhi⟩), narrow_eq_ofNat,
    BitVec.toNat_sub_of_le hle]
  rfl

theorem letterIndex_of_lower (hlo : 0x61 ≤ c.toNat) :
    letterIndex c = BitVec.ofNat 5 (c.toNat - 0x60) := by
  have hle : 0x60#8 ≤ c := BitVec.le_def.mpr (Nat.le_of_succ_le hlo)
  have hupper : ¬ isUpper c = true := by rw [isUpper_iff]; omega
  rw [letterIndex, if_neg hupper, narrow_eq_ofNat, BitVec.toNat_sub_of_le hle]
  rfl

end

/-- Settles O33: with the gates open and the operand check passed, each command is its loop
entry. -/
theorem loopCommandsEnterTheKeyLoop : Obligations.LoopCommandsEnterTheKeyLoop := by
  intro b s ho
  refine ⟨cipherGates_open ho _, fun hlo hhi => ?index, fun hlo hhi => ?upper,
    fun hlo hhi => ?lower⟩
  case index =>
    have legal : isIndexOperand b = true := decide_eq_true ⟨hlo, hhi⟩
    rw [← narrow_eq_ofNat]
    exact ⟨cipherGates_of_check_passes ho legal _ _, cipherGates_of_check_passes ho legal _ _⟩
  case upper =>
    have upper : isUpper b = true := isUpper_iff.mpr ⟨hlo, hhi⟩
    have letter : isLetter b = true := by rw [isLetter, upper, Bool.true_or]
    rw [← letterIndex_of_upper hlo hhi]
    exact ⟨cipherGates_of_check_passes ho letter _ _, cipherGates_of_check_passes ho upper _ _⟩
  case lower =>
    have letter : isLetter b = true := by rw [isLetter, isLower_iff.mpr ⟨hlo, hhi⟩, Bool.or_true]
    rw [← letterIndex_of_lower hlo]
    exact cipherGates_of_check_passes ho letter _ _

/-! ### The micro-steps of the transform phases (R122, R128) -/

section

variable {s : State} (hrst : s.rst = false)
include hrst

theorem step_of_transform_ok {m : Transform} {t : State} (hp : s.phase = m.phase)
    (h : m.run s.passTime = .ok t) : step s = .next { t with phase := m.nextPhase } := by
  have hb : s.busy = true := by rw [State.busy, hp, m.running_phase]
  rw [step_of_busy hrst hb, microStep_transform m (s.passTime_phase.trans hp), h]
  rfl

theorem step_of_transform_error {m : Transform} {v : Card} (hp : s.phase = m.phase)
    (h : m.run s.passTime = .error v) : step s = .next { s.passTime with
      fatal := true, deckValid := false, phase := .fault, lastErr := 0xE#4,
      rsp := some (rspWord .errCorrupt (zext v)) } := by
  have hb : s.busy = true := by rw [State.busy, hp, m.running_phase]
  rw [step_of_busy hrst hb, microStep_transform m (s.passTime_phase.trans hp), h]
  rfl

end

theorem passTime_findCard (s : State) (v : Card) : s.passTime.findCard v = s.findCard v := by
  rw [State.passTime_eq]
  rfl

/-- Settles O34: a transform step that succeeds advances PHASE. -/
theorem transformPhasesAdvanceInOrder : Obligations.TransformPhasesAdvanceInOrder :=
  fun _ hrst =>
    ⟨fun _ hp h => step_of_transform_ok (m := .ja) hrst hp h,
      fun _ hp h => step_of_transform_ok (m := .jb) hrst hp h,
      fun _ hp h => step_of_transform_ok (m := .tc) hrst hp h,
      fun hp => step_of_transform_ok (m := .cc) hrst hp rfl⟩

/-- Settles O35: a transform step that misses its sentinel takes the Corrupt fault. -/
theorem corruptEndsTheLoopAtOnce : Obligations.CorruptEndsTheLoopAtOnce := by
  intro s hrst
  refine ⟨fun hp hnone => ?_, fun hp hnone => ?_⟩
  · have hnone : s.passTime.findCard 27#5 = none := (passTime_findCard s _).trans hnone
    obtain hp | hp := hp
    · exact step_of_transform_error (m := .ja) hrst hp (microJA_of_none hnone)
    · exact step_of_transform_error (m := .tc) hrst hp (microTC_of_none hnone)
  · have hnone : s.passTime.findCard 28#5 = none := (passTime_findCard s _).trans hnone
    obtain hp | ⟨hp, hfound⟩ := hp
    · exact step_of_transform_error (m := .jb) hrst hp (microJB_of_none hnone)
    · obtain ⟨p, hfound⟩ := Option.ne_none_iff_exists'.mp hfound
      exact step_of_transform_error (m := .tc) hrst hp
        (microTC_of_some_none ((passTime_findCard s _).trans hfound) hnone)

/-! ### The micro-step of phase EX (R123, R124) -/

theorem retrySucc_eq_ofNat (r : Byte) : retrySucc r = BitVec.ofNat 8 (min 255 (r.toNat + 1)) := by
  rw [← retrySucc_toNat, BitVec.ofNat_toNat, BitVec.setWidth_eq]

theorem passTime_candidate (s : State) : s.passTime.candidate = s.candidate := by
  rw [State.passTime_eq]
  rfl

section

variable {s : State} (hrst : s.rst = false) (hp : s.phase = .ex)
include hrst hp

theorem step_of_extract : step s = .next (extractStep s.passTime) := by
  have hb : s.busy = true := by rw [State.busy, hp]; rfl
  rw [step_of_busy hrst hb, microStep_extract (s.passTime_phase.trans hp)]

theorem step_of_discard (ha : accepts s.candidate = false) : step s = .next { s.passTime with
    cand := s.candidate, keyValid := false, retry := retrySucc s.retry, phase := .ja } := by
  rw [step_of_extract hrst hp, extractStep, microEX_eq, passTime_candidate, ha]
  simp

theorem step_of_accept (ha : accepts s.candidate = true) : step s = .next { s.passTime with
    cand := s.candidate, key := s.candidate, keyValid := true, phase := .idle,
    rsp := some (rspWord .ok ({ s with key := s.candidate } : State).completionData) } := by
  rw [step_of_extract hrst hp, extractStep, microEX_eq, passTime_candidate, ha, if_pos rfl,
    State.respond_normal _ rfl]
  simp [State.completionData]

end

/-- Settles O36: the acceptance test decides between the two micro-steps of phase EX. -/
theorem extractionRetriesOrCompletes : Obligations.ExtractionRetriesOrCompletes := by
  rintro s c hrst hp rfl
  refine ⟨fun h => ?_, fun h => ?_⟩
  · rw [← retrySucc_eq_ofNat]
    exact step_of_discard hrst hp (decide_eq_false (Nat.not_lt.mpr h))
  · exact step_of_accept hrst hp (decide_eq_true h)

end Sys2Proof.Machine
end

section
/-! SUPPORT for 43_key_loop.md. Without acts of the host the steps are iterated micro-steps, and an
engine at rest stays as it is (R121). -/

namespace Sys2Proof.Machine

section

variable {s : State}

theorem microStep_rest (hb : s.busy = false) : microStep s = s := by
  obtain hp | hp := State.busy_eq_false_iff.mp hb <;> simp only [microStep, hp]

theorem iterate_microStep_rest (hb : s.busy = false) (k : Nat) : microStep^[k] s = s :=
  Function.iterate_fixed (microStep_rest hb) k

theorem microStep_inputs (s : State) : (microStep s).inputs = s.inputs := by
  obtain ⟨-, -, -, -, -, hi, -⟩ := microStep_frame s
  exact hi

/-- A step with no act of the host left is a micro-step, which does nothing at rest. -/
theorem step_of_no_inputs (hi : s.inputs = []) : step s = .next (microStep s) := by
  cases hb : s.busy with
  | true => exact step_running hi hb
  | false => rw [step_rest hi hb, microStep_rest hb]

theorem steps_of_no_inputs (hi : s.inputs = []) (k : Nat) :
    steps k s = .next (microStep^[k] s) := by
  induction k generalizing s with
  | zero => rfl
  | succ k ih =>
    rw [steps_succ_of_next (step_of_no_inputs hi), ih ((microStep_inputs s).trans hi),
      Function.iterate_succ_apply]

theorem eq_iterate_of_steps {k : Nat} {t : State} (hi : s.inputs = []) (h : steps k s = .next t) :
    t = microStep^[k] s :=
  Host.Outcome.next.inj (h.symm.trans (steps_of_no_inputs hi k))

/-- An engine that has come to rest is in the same state from then on. -/
theorem iterate_microStep_of_le {j k : Nat} (h : j ≤ k) (hb : (microStep^[j] s).busy = false) :
    microStep^[k] s = microStep^[j] s := by
  rw [← Nat.sub_add_cancel h, Function.iterate_add_apply, iterate_microStep_rest hb]

/-- An engine that is busy has been busy all the time. -/
theorem iterate_busy_of_le {j k : Nat} (h : j ≤ k) (hb : (microStep^[k] s).busy = true) :
    (microStep^[j] s).busy = true := by
  by_contra hj
  have hj : (microStep^[j] s).busy = false := by simpa using hj
  rw [iterate_microStep_of_le h hj, hj] at hb
  nomatch hb

end

end Sys2Proof.Machine
end

section
/-! PROOFS of 43_key_loop.md: the micro-steps and the big-step loop (R120 to R125). `keyLoop` writes
no PHASE, so its states are compared with micro-step states that differ in PHASE at most. -/

namespace Sys2Proof.Machine

/-! ### One cycle (R108, R122, R123) -/

section

variable {s t : State}

/-- No transform step reads or writes PHASE. -/
theorem Transform.run_setPhase (m : Transform) (s : State) (p : Phase) :
    m.run { s with phase := p } = (m.run s).map ({ · with phase := p }) := by
  have hfind (v : Card) : ({ s with phase := p } : State).findCard v = s.findCard v := rfl
  cases m with
  | ja =>
    rw [run, microJA, microJA, hfind]
    cases s.findCard Config.jokerA <;> rfl
  | jb =>
    rw [run, microJB, microJB, hfind]
    cases s.findCard Config.jokerB <;> rfl
  | tc =>
    rw [run, microTC, microTC, hfind, hfind]
    cases s.findCard Config.jokerA <;> cases s.findCard Config.jokerB <;> rfl
  | cc => rfl

theorem iterate_of_run_ok {m : Transform} (h : m.run s = .ok t) (k : Nat) :
    microStep^[k + 1] { s with phase := m.phase } =
      microStep^[k] { t with phase := m.nextPhase } := by
  rw [Function.iterate_succ_apply, microStep_transform m rfl, m.run_setPhase, h]
  rfl

/-- A missing sentinel ends the loop, whatever number of micro-steps follows (R128). -/
theorem iterate_of_run_error {m : Transform} {v : Card} (h : m.run s = .error v) (k : Nat) :
    microStep^[k + 1] { s with phase := m.phase } = s.raiseCorrupt v := by
  rw [Function.iterate_succ_apply, microStep_transform m rfl, m.run_setPhase, h]
  exact iterate_microStep_rest rfl k

section

variable {s1 s2 : State} {v : Card}

theorem fourSteps_of_ja_error (h : microJA s = .error v) : fourSteps s = .error (v, s) := by
  simp only [fourSteps, h]

theorem fourSteps_of_jb_error (h1 : microJA s = .ok s1) (h2 : microJB s1 = .error v) :
    fourSteps s = .error (v, s1) := by
  simp only [fourSteps, h1, h2]

theorem fourSteps_of_tc_error (h1 : microJA s = .ok s1) (h2 : microJB s1 = .ok s2)
    (h3 : microTC s2 = .error v) : fourSteps s = .error (v, s2) := by
  simp only [fourSteps, h1, h2, h3]

end

/-- The micro-step state that the end of the four transform steps stands for. -/
def fourStepsState : Except (Card × State) State → State
  | .error (v, t) => t.raiseCorrupt v
  | .ok t => { t with phase := .ex }

theorem iterate_four_microSteps (s : State) :
    microStep^[4] { s with phase := .ja } = fourStepsState (fourSteps s) := by
  cases e1 : microJA s with
  | error v =>
    rw [fourSteps_of_ja_error e1]
    exact iterate_of_run_error (m := .ja) e1 3
  | ok s1 =>
    refine (iterate_of_run_ok (m := .ja) e1 3).trans ?_
    cases e2 : microJB s1 with
    | error v =>
      rw [fourSteps_of_jb_error e1 e2]
      exact iterate_of_run_error (m := .jb) e2 2
    | ok s2 =>
      refine (iterate_of_run_ok (m := .jb) e2 2).trans ?_
      cases e3 : microTC s2 with
      | error v =>
        rw [fourSteps_of_tc_error e1 e2 e3]
        exact iterate_of_run_error (m := .tc) e3 1
      | ok s3 =>
        rw [fourSteps_of_ok e1 e2 e3]
        refine (iterate_of_run_ok (m := .tc) e3 1).trans ?_
        exact iterate_of_run_ok (m := .cc) (Transform.run_cc s3) 0

theorem iterate_cycle (s : State) :
    microStep^[5] { s with phase := .ja } = microStep (fourStepsState (fourSteps s)) := by
  rw [Function.iterate_succ_apply', iterate_four_microSteps]

/-! ### The loop -/

theorem microStep_of_accepts (ha : accepts t.candidate = true) :
    microStep { t with phase := .ex } = (LoopEnd.accepted (microEX t)).finish := by
  have ha' : accepts ({ t with phase := .ex } : State).candidate = true := ha
  rw [microStep_extract rfl, extractStep, if_pos ha', microEX_eq, microEX_eq]
  rfl

theorem microStep_of_not_accepts (ha : accepts t.candidate = false) :
    microStep { t with phase := .ex } =
      { microEX t with retry := retrySucc t.retry, phase := .ja } := by
  have ha' : accepts ({ t with phase := .ex } : State).candidate = false := ha
  rw [microStep_extract rfl, extractStep, ha', microEX_eq, microEX_eq]
  rfl

theorem keyLoop_of_error {v : Card} (h : fourSteps s = .error (v, t)) (n : Nat) :
    keyLoop (n + 1) s = some (.corrupt v t) := by
  simp only [keyLoop, h]

theorem keyLoop_of_accepts (h : fourSteps s = .ok t) (ha : accepts t.candidate = true) (n : Nat) :
    keyLoop (n + 1) s = some (.accepted (microEX t)) := by
  simp [keyLoop, h, ha]

theorem keyLoop_of_not_accepts (h : fourSteps s = .ok t) (ha : accepts t.candidate = false)
    (n : Nat) : keyLoop (n + 1) s = keyLoop n { microEX t with retry := retrySucc t.retry } := by
  simp [keyLoop, h, ha]

theorem LoopEnd.finish_busy (e : LoopEnd) : e.finish.busy = false := by
  cases e <;> rfl

/-- The micro-steps of `n` cycles and `n` cycles of the big-step loop: both end, in the same state,
or neither does. -/
theorem iterate_cycles (n : Nat) (s : State) :
    (∃ e, keyLoop n s = some e ∧ microStep^[5 * n] { s with phase := .ja } = e.finish) ∨
      keyLoop n s = none ∧ (microStep^[5 * n] { s with phase := .ja }).busy = true := by
  induction n generalizing s with
  | zero => exact .inr ⟨rfl, rfl⟩
  | succ n ih =>
    have ended (e : LoopEnd) : microStep^[5 * n] e.finish = e.finish :=
      iterate_microStep_rest e.finish_busy _
    rw [Nat.mul_succ, Function.iterate_add_apply, iterate_cycle]
    cases h : fourSteps s with
    | error r =>
      obtain ⟨v, t⟩ := r
      refine .inl ⟨_, keyLoop_of_error h n, ?_⟩
      have faulted : microStep (t.raiseCorrupt v) = t.raiseCorrupt v := microStep_rest rfl
      exact (congrArg _ faulted).trans (ended (.corrupt v t))
    | ok t =>
      cases ha : accepts t.candidate with
      | true =>
        refine .inl ⟨_, keyLoop_of_accepts h ha n, ?_⟩
        rw [fourStepsState, microStep_of_accepts ha]
        exact ended _
      | false =>
        rw [keyLoop_of_not_accepts h ha, fourStepsState, microStep_of_not_accepts ha]
        exact ih _

end

section

variable {s : State} (hp : s.phase = .ja)
include hp

theorem iterate_of_keyLoop_some {n : Nat} {e : LoopEnd} (h : keyLoop n s = some e) :
    microStep^[5 * n] s = e.finish := by
  obtain ⟨e', h', hend⟩ | ⟨h', -⟩ := iterate_cycles n s
  · obtain rfl := Option.some.inj (h.symm.trans h')
    rwa [← hp] at hend
  · nomatch h.symm.trans h'

theorem busy_of_keyLoop_none {n : Nat} (h : keyLoop n s = none) :
    (microStep^[5 * n] s).busy = true := by
  obtain ⟨e', h', -⟩ | ⟨-, hb⟩ := iterate_cycles n s
  · nomatch h.symm.trans h'
  · rwa [← hp] at hb

end

/-- Settles O37: `iterate_cycles` compares the two loops cycle by cycle, and `k` cycles have at
least `k` micro-steps. -/
theorem microStepsRefineTheBigStepLoop : Obligations.MicroStepsRefineTheBigStepLoop := by
  intro s t hp hi
  constructor
  · rintro ⟨k, hrun, hb⟩
    obtain rfl := eq_iterate_of_steps hi hrun
    have hrest : microStep^[5 * k] s = microStep^[k] s := iterate_microStep_of_le (by omega) hb
    cases h : keyLoop k s with
    | none =>
      rw [← hrest, busy_of_keyLoop_none hp h] at hb
      nomatch hb
    | some e => exact ⟨k, e, h, hrest.symm.trans (iterate_of_keyLoop_some hp h)⟩
  · rintro ⟨n, e, h, rfl⟩
    exact ⟨5 * n, by rw [steps_of_no_inputs hi, iterate_of_keyLoop_some hp h], e.finish_busy⟩

/-! ### The response port of a busy engine -/

/-- A micro-step after which the engine is still busy gives no response (R121, R123). -/
theorem microStep_rsp_of_busy {s : State} (hb : (microStep s).busy = true) :
    (microStep s).rsp = s.rsp := by
  cases hs : s.busy with
  | false => rw [microStep_rest hs]
  | true =>
    have effect := microStep_effect hs
    generalize microStep s = t at effect hb
    cases effect with
    | transforms m t _ hm => rw [Transform.run_frame hm]
    | corrupts | completes => nomatch hb
    | retries => simp

theorem iterate_microStep_rsp_of_busy {s : State} {k : Nat} (hb : (microStep^[k] s).busy = true) :
    (microStep^[k] s).rsp = s.rsp := by
  induction k with
  | zero => rfl
  | succ k ih =>
    have earlier := ih (iterate_busy_of_le k.le_succ hb)
    rw [Function.iterate_succ_apply'] at hb ⊢
    exact (microStep_rsp_of_busy hb).trans earlier

/-- Settles O38: a loop that has not ended after any number of cycles is busy after any number of
micro-steps, and a loop that has ended is not. -/
theorem endlessLoopStaysBusyForEver : Obligations.EndlessLoopStaysBusyForEver := by
  intro s hp hi hr
  constructor
  · intro h k
    have hb : (microStep^[k] s).busy = true :=
      iterate_busy_of_le (k := 5 * k) (by omega) (busy_of_keyLoop_none hp (h k))
    exact ⟨_, steps_of_no_inputs hi k, hb, (iterate_microStep_rsp_of_busy hb).trans hr⟩
  · intro h n
    obtain ⟨t, hrun, hb, -⟩ := h (5 * n)
    obtain rfl := eq_iterate_of_steps hi hrun
    cases e : keyLoop n s with
    | none => rfl
    | some e' =>
      rw [iterate_of_keyLoop_some hp e, e'.finish_busy] at hb
      nomatch hb

end Sys2Proof.Machine
end

section
/-! PROOFS of 43_key_loop.md: two runs of the loop on decks that read the same (R127), and the key
that a run on a complete deck delivers (R129). -/

namespace Sys2Proof.Machine

/-! ### Two runs on one linear view (R127) -/

/-- What two runs of the key loop share: the linear view and PHASE, and after the completion the
key. -/
structure SameRunView (s s' : State) : Prop where
  view : s.linear = s'.linear
  phase : s.phase = s'.phase
  key : s.phase = .idle → s.key = s'.key ∧ s.cand = s'.cand

section

variable {s s' : State}

/-- A transform step gives equal views again, or misses the same sentinel in both runs. -/
theorem SameRunView.transform (h : SameRunView s s') {m : Transform} (hp : s.phase = m.phase) :
    SameRunView (microStep s) (microStep s') := by
  rw [microStep_transform m hp, microStep_transform m (h.phase.symm.trans hp)]
  have hrun := m.run_sameRun h.view
  generalize m.run s = r, m.run s' = r' at hrun
  cases hrun with
  | error v => exact ⟨h.view, rfl, nofun⟩
  | ok t t' hview =>
    refine ⟨hview, rfl, fun hidle => ?_⟩
    have running := m.running_nextPhase
    rw [show m.nextPhase = .idle from hidle] at running
    nomatch running

/-- Both runs extract the same candidate, and take it or go on (R109, R123). -/
theorem SameRunView.extract (h : SameRunView s s') (hp : s.phase = .ex) :
    SameRunView (microStep s) (microStep s') := by
  have hc : s.candidate = s'.candidate := State.candidate_congr h.view
  rw [microStep_extract hp, microStep_extract (h.phase.symm.trans hp), extractStep, extractStep,
    microEX_eq, microEX_eq, ← hc]
  cases accepts s.candidate with
  | true => exact ⟨h.view, rfl, fun _ => ⟨rfl, rfl⟩⟩
  | false => exact ⟨h.view, rfl, nofun⟩

theorem SameRunView.microStep (h : SameRunView s s') :
    SameRunView (microStep s) (microStep s') := by
  cases hb : s.busy with
  | false =>
    have hb' : s'.busy = false := by rw [← hb, State.busy, State.busy, h.phase]
    rwa [microStep_rest hb, microStep_rest hb']
  | true =>
    obtain ⟨m, hp⟩ | hp := running_cases hb
    · exact h.transform hp
    · exact h.extract hp

theorem SameRunView.iterate (h : SameRunView s s') (k : Nat) :
    SameRunView (Machine.microStep^[k] s) (Machine.microStep^[k] s') := by
  induction k with
  | zero => exact h
  | succ k ih =>
    rw [Function.iterate_succ_apply', Function.iterate_succ_apply']
    exact ih.microStep

end

/-- Settles O41: every micro-step is a function of the linear view, as far as view, PHASE and the
delivered key go. -/
theorem keyStreamDependsOnTheDeckAlone : Obligations.KeyStreamDependsOnTheDeckAlone := by
  intro k s s' t t' hp hp' hi hi' hview hrun hrun'
  obtain rfl := eq_iterate_of_steps hi hrun
  obtain rfl := eq_iterate_of_steps hi' hrun'
  have start : SameRunView s s' :=
    ⟨hview, hp.trans hp'.symm, fun hidle => nomatch hp.symm.trans hidle⟩
  obtain ⟨hview, hphase, hkey⟩ := start.iterate k
  exact ⟨hview, hphase, hkey⟩

/-! ### The data byte of the completion (R124, R130, R131) -/

theorem encShift_range (i k : Card) : 1 ≤ (encShift i k).toNat ∧ (encShift i k).toNat ≤ 26 := by
  rw [encShift, BitVec.toNat_ofInt]
  omega

theorem decShift_range (i k : Card) : 1 ≤ (decShift i k).toNat ∧ (decShift i k).toNat ≤ 26 := by
  simp only [decShift]
  split
  case isTrue => decide
  case isFalse hz =>
    rw [BitVec.toNat_ofInt]
    omega

theorem zext_toNat (c : Card) : (zext c).toNat = c.toNat :=
  BitVec.toNat_setWidth_of_le (by decide)

theorem charOf_toNat {c : Card} (h : c.toNat ≤ 26) : (charOf c).toNat = 0x40 + c.toNat := by
  rw [charOf, BitVec.toNat_add, zext_toNat]
  exact Nat.mod_eq_of_lt (by rw [BitVec.toNat_ofNat]; omega)

section

variable {s : State}

theorem completionData_of_keyonly (hm : s.mode = .keyonly) : s.completionData = zext s.key := by
  simp only [State.completionData, hm]

/-- A mapper command returns a letter 1..26 in the latched form (R134 to R137). -/
theorem completionData_of_mapper (hm : s.mode ≠ .keyonly) :
    ∃ x : Card, 1 ≤ x.toNat ∧ x.toNat ≤ 26 ∧ (s.form = .index → s.completionData = zext x) ∧
      (s.form = .character → s.completionData = charOf x) := by
  cases e : s.mode with
  | keyonly => exact absurd e hm
  | enc =>
    obtain ⟨hlo, hhi⟩ := encShift_range s.letter s.key
    refine ⟨_, hlo, hhi, fun hf => ?_, fun hf => ?_⟩
    all_goals simp only [State.completionData, e, hf]
  | dec =>
    obtain ⟨hlo, hhi⟩ := decShift_range s.letter s.key
    refine ⟨_, hlo, hhi, fun hf => ?_, fun hf => ?_⟩
    all_goals simp only [State.completionData, e, hf]

end

/-! ### The loop on a complete deck (R129) -/

/-- The engine has completed a loop command: the key is taken and the response waits (R124). -/
structure State.Completed (s : State) : Prop where
  keyValid : s.keyValid = true
  rsp : s.rsp = some (rspWord .ok s.completionData)

/-- A micro-step without a fault goes on with the loop or completes it, and writes no error. -/
theorem MicroEffect.of_not_fatal {s t : State} (e : MicroEffect s t) (hf : t.fatal = false) :
    t.lastErr = s.lastErr ∧ (t.busy = true ∨ t.Completed) := by
  cases e with
  | transforms m t _ hm =>
    rw [Transform.run_frame hm]
    exact ⟨rfl, .inl m.running_nextPhase⟩
  | corrupts => nomatch hf
  | completes _ ha =>
    exact ⟨by simp [nextLastErr_normal (st := .ok) rfl], .inr ⟨by simpa using ha, rfl⟩⟩
  | retries => exact ⟨by simp, .inl rfl⟩

/-- What a run of the key loop from `s` on has kept when it is in `t`, on a complete deck. -/
structure LoopRun (s t : State) : Prop where
  inv : t.Inv
  loading : t.loading = s.loading
  ldcnt : t.ldcnt = s.ldcnt
  lastErr : t.lastErr = s.lastErr
  mode : t.mode = s.mode
  form : t.form = s.form
  outcome : t.busy = true ∨ t.Completed

section

variable {s t : State}

theorem LoopRun.microStep (h : LoopRun s t) : LoopRun s (microStep t) := by
  cases hb : t.busy with
  | false => rwa [microStep_rest hb]
  | true =>
    have effect := microStep_effect hb
    obtain ⟨hloading, hldcnt, hmode, hform, -⟩ := microStep_frame t
    have hinv := effect.keeps_inv hb h.inv
    obtain ⟨hlast, houtcome⟩ := effect.of_not_fatal hinv.not_fatal
    exact ⟨hinv, hloading.trans h.loading, hldcnt.trans h.ldcnt, hlast.trans h.lastErr,
      hmode.trans h.mode, hform.trans h.form, houtcome⟩

theorem LoopRun.iterate (h : s.Inv) (hb : s.busy = true) (k : Nat) :
    LoopRun s (Machine.microStep^[k] s) := by
  induction k with
  | zero => exact ⟨h, rfl, rfl, rfl, rfl, rfl, .inl hb⟩
  | succ k ih =>
    rw [Function.iterate_succ_apply']
    exact ih.microStep

/-- The engine at rest without a fault is idle (R15). -/
theorem State.Inv.idle_of_not_busy (h : s.Inv) (hb : s.busy = false) : s.phase = .idle :=
  (State.busy_eq_false_iff.mp hb).resolve_right fun hp =>
    nomatch h.not_fatal.symm.trans (h.fatal_iff.mpr hp)

end

/-- Settles O40: the deck invariant holds at the end of the run, and with KEY_VALID set it says that
the key is legal. -/
theorem completedLoopDeliversALegalKey : Obligations.CompletedLoopDeliversALegalKey := by
  intro k s t hinv hbusy hi hrun hrest
  obtain rfl := eq_iterate_of_steps hi hrun
  have run := LoopRun.iterate hinv hbusy k
  generalize microStep^[k] s = t at run hrest
  obtain ⟨hvalid, hrsp⟩ := run.outcome.resolve_left (by simp [hrest])
  obtain ⟨hdeck, hkey, hcand⟩ := run.inv.key_valid hvalid
  refine ⟨run.inv.idle_of_not_busy hrest, run.inv.deck_complete hdeck, hvalid, hcand, hkey,
    run.inv.key_le, run.inv.not_fatal.trans hinv.not_fatal.symm, run.loading,
    hdeck.trans (hinv.busy_loop hbusy).1.symm, run.ldcnt, run.lastErr, _, hrsp, fun hm => ?_,
    fun hm hf => ?_, fun hm hf => ?_⟩
  · rw [completionData_of_keyonly (run.mode.trans hm), zext_toNat]
  all_goals
    obtain ⟨x, hlo, hhi, hindex, hchar⟩ := completionData_of_mapper (run.mode ▸ hm)
  · rw [hindex (run.form.trans hf), zext_toNat]
    exact ⟨hlo, hhi⟩
  · rw [hchar (run.form.trans hf), charOf_toNat hhi]
    omega

end Sys2Proof.Machine
end

section
/-! PROOFS of 44_letter_mapper.md: the two functions `enc` and `dec` (R130 to R132). -/

namespace Sys2Proof.Machine

section

variable {i k : Card}

/-! ### The source's formulas (R130, R131) -/

theorem encShift_toNat (hi : 1 ≤ i.toNat) (k : Card) :
    (encShift i k).toNat = (i.toNat + k.toNat - 1) % 26 + 1 := by
  rw [encShift, BitVec.toNat_ofInt]
  omega

theorem decShift_toNat {d : Int} (hd : d = (i.toNat : Int) - (k.toNat : Int)) :
    ((decShift i k).toNat : Int) =
      if (d % 26 + 26) % 26 = 0 then 26 else (d % 26 + 26) % 26 := by
  subst hd
  simp only [decShift]
  split
  case isTrue => rfl
  case isFalse =>
    rw [BitVec.toNat_ofInt]
    omega

/-- The doubled `mod` hides whether the inner one is truncated or floored (R131). -/
theorem tmod_add_emod (d : Int) : (d.tmod 26 + 26) % 26 = (d % 26 + 26) % 26 := by
  rw [Int.tmod_eq_emod]
  split
  · simp
  · simp only [Int.natAbs]
    omega

/-! ### The adder and the subtractor form (R130, R131) -/

section

variable (hi : 1 ≤ i.toNat) (hi' : i.toNat ≤ 26) (hk : 1 ≤ k.toNat) (hk' : k.toNat ≤ 26)
include hi hi' hk hk'

theorem encShift_adder : (encShift i k).toNat =
    if i.toNat + k.toNat ≤ 26 then i.toNat + k.toNat else i.toNat + k.toNat - 26 := by
  rw [encShift_toNat hi]
  split <;> omega

theorem decShift_subtractor {d : Int} (hd : d = (i.toNat : Int) - (k.toNat : Int)) :
    ((decShift i k).toNat : Int) = if d > 0 then d else d + 26 := by
  rw [decShift_toNat hd]
  omega

/-! ### The two functions undo each other (R132) -/

theorem decShift_encShift : decShift (encShift i k) k = i := by
  obtain ⟨hlo, hhi⟩ := encShift_range i k
  have henc := encShift_adder hi hi' hk hk'
  have hdec := decShift_subtractor hlo hhi hk hk' rfl
  refine BitVec.eq_of_toNat_eq ?_
  split at henc <;> split at hdec <;> omega

theorem encShift_decShift : encShift (decShift i k) k = i := by
  obtain ⟨hlo, hhi⟩ := decShift_range i k
  have hdec := decShift_subtractor hi hi' hk hk' rfl
  have henc := encShift_adder hlo hhi hk hk'
  refine BitVec.eq_of_toNat_eq ?_
  split at henc <;> split at hdec <;> omega

end

end

/-- Settles O43: the formula, and the adder form where the sum wraps once at most. -/
theorem encIsTheEncryptionShift : Obligations.EncIsTheEncryptionShift :=
  fun _ k hi hi' => ⟨encShift_toNat hi k, encShift_adder hi hi'⟩

/-- Settles O44: the two readings of the inner `mod` agree by `tmod_add_emod`. -/
theorem decIsTheDecryptionShift : Obligations.DecIsTheDecryptionShift := by
  intro i k hi hi' hk hk' d hd
  rw [tmod_add_emod]
  exact ⟨decShift_toNat hd, decShift_toNat hd, decShift_subtractor hi hi' hk hk' hd⟩

/-- Settles O45, from the adder and the subtractor form. -/
theorem decUndoesEnc : Obligations.DecUndoesEnc :=
  fun _ _ hi hi' hk hk' => ⟨decShift_encShift hi hi' hk hk', encShift_decShift hi hi' hk hk'⟩

end Sys2Proof.Machine
end

section
/-! SUPPORT for 44_letter_mapper.md. The characters of letters (R133), and what a host gets that
issues a command: the response that the iterated micro-steps have left. -/

namespace Sys2Proof.Machine

/-! ### Characters of letters (R133) -/

section

variable {x : Card} (hlo : 1 ≤ x.toNat) (hhi : x.toNat ≤ 26)
include hlo hhi

theorem isUpper_charOf : isUpper (charOf x) = true := by
  rw [isUpper_iff, charOf_toNat hhi]
  omega

theorem letterIndex_charOf : letterIndex (charOf x) = x := by
  obtain ⟨hlo', hhi'⟩ := isUpper_iff.mp (isUpper_charOf hlo hhi)
  rw [letterIndex_of_upper hlo' hhi', charOf_toNat hhi, Nat.add_sub_cancel_left,
    BitVec.ofNat_toNat, BitVec.setWidth_eq]

end

theorem isLetter_of_isUpper {c : Byte} (h : isUpper c = true) : isLetter c = true := by
  rw [isLetter, h, Bool.true_or]

section

variable {c : Byte} (hc : isLetter c = true)
include hc

theorem isLetter_upperOf : isLetter (upperOf c) = true :=
  let ⟨hlo, hhi⟩ := letterIndex_legal hc
  isLetter_of_isUpper (isUpper_charOf hlo hhi)

theorem letterIndex_upperOf : letterIndex (upperOf c) = letterIndex c :=
  let ⟨hlo, hhi⟩ := letterIndex_legal hc
  letterIndex_charOf hlo hhi

end

/-! ### One command and its response -/

/-- What the host takes from an engine: the waiting response, if there is one, and the state
without it. -/
def State.answered (t : State) : Option (RspWord × State) :=
  t.rsp.map fun w => (w, { t with rsp := none })

theorem State.answered_of_rsp {t : State} {w : RspWord} (h : t.rsp = some w) :
    t.answered = some (w, { t with rsp := none }) := by
  rw [State.answered, h]
  rfl

theorem State.answered_eq_some {t u : State} {w : RspWord} (h : t.answered = some (w, u)) :
    t.rsp = some w ∧ u = { t with rsp := none } := by
  obtain ⟨w', hw, e⟩ := Option.map_eq_some_iff.mp h
  obtain ⟨rfl, rfl⟩ := Prod.mk.inj e
  exact ⟨hw, rfl⟩

theorem issue_zero (i : Instr) (s : State) : issue 0 i s = none := rfl

/-- The first step executes the command, the others are micro-steps. -/
theorem issue_succ {i : Instr} {s t : State} (hb : s.busy = false)
    (he : exec i { s with inputs := [], rsp := none } = .next t) (hi : t.inputs = []) (k : Nat) :
    issue (k + 1) i s = (microStep^[k] t).answered := by
  have hready : { s with inputs := [.offer (encode i)], rsp := none }.cmdReady = true :=
    State.cmdReady_iff.mpr ⟨rfl, hb, rfl⟩
  have hstep : step { s with inputs := [.offer (encode i)], rsp := none } = .next t :=
    (step_of_offer rfl hready).trans ((runWord_of_ok (decode_encode i)).trans he)
  rw [issue, steps_succ_of_next hstep, steps_of_no_inputs hi, State.answered]
  generalize microStep^[k] t = u
  dsimp only
  cases u.rsp <;> rfl

theorem issueAll_cons_eq_some {k : Nat} {i : Instr} {is : List Instr} {s u : State}
    {ws : List RspWord} (h : issueAll k (i :: is) s = some (ws, u)) :
    ∃ w t ws', issue k i s = some (w, t) ∧ issueAll k is t = some (ws', u) ∧ ws = w :: ws' := by
  unfold issueAll at h
  split at h
  case h_1 => nomatch h
  case h_2 w t hi =>
    split at h
    case h_1 => nomatch h
    case h_2 ws' u' his =>
      obtain ⟨rfl, rfl⟩ := Prod.mk.inj (Option.some.inj h)
      exact ⟨w, t, ws', hi, his, rfl⟩

theorem State.Ready.not_busy {s : State} (h : s.Ready) : s.busy = false :=
  let ⟨hidle, _, _⟩ := h
  State.busy_eq_false_iff.mpr (.inl hidle)

theorem State.Ready.silent {s : State} (h : s.Ready) : s.rsp = none :=
  let ⟨_, _, hrsp⟩ := h
  hrsp

theorem State.Inv.gatesOpen {s : State} (h : s.Inv) (hr : s.Ready) : s.GatesOpen :=
  let ⟨_, hvalid, _⟩ := hr
  ⟨h.not_fatal, h.valid_not_loading hvalid, hvalid⟩

/-- No micro-step writes the latched letter or the host's acts. -/
theorem iterate_microStep_frame (k : Nat) (s : State) :
    (microStep^[k] s).letter = s.letter ∧ (microStep^[k] s).inputs = s.inputs := by
  induction k with
  | zero => exact ⟨rfl, rfl⟩
  | succ k ih =>
    obtain ⟨-, -, -, -, hletter, hinputs, -⟩ := microStep_frame (microStep^[k] s)
    rw [Function.iterate_succ_apply']
    exact ⟨hletter.trans ih.1, hinputs.trans ih.2⟩

end Sys2Proof.Machine
end

section
/-! PROOFS of 44_letter_mapper.md: messages of characters (R132, R136, R138). A mapper command that is
answered has run the key loop to its completion, which maps the letter with the key. -/

namespace Sys2Proof.Machine

/-! ### The loop of a mapper command (R121, R124) -/

/-- What the loop's completion makes of LETTER and KEY (R124). -/
def Mode.shift : Mode → Card → Card → Card
  | .keyonly, _, k => k
  | .enc, i, k => encShift i k
  | .dec, i, k => decShift i k

theorem completionData_of_character {s : State} (hm : s.mode ≠ .keyonly)
    (hf : s.form = .character) : s.completionData = charOf (s.mode.shift s.letter s.key) := by
  cases e : s.mode with
  | keyonly => exact absurd e hm
  | enc | dec => simp only [State.completionData, e, hf, Mode.shift]

/-- The state of the loop that ENCC or DECC has just entered. -/
def State.mapperEntry (s : State) (m : Mode) (l : Card) : State :=
  { s with inputs := [], rsp := none }.loopEntry m .character l

/-- A mapper command has completed: its response waits, and the engine may take the next one. -/
structure Mapped (m : Mode) (l : Card) (t : State) : Prop where
  inv : t.Inv
  idle : t.phase = .idle
  deckValid : t.deckValid = true
  inputs : t.inputs = []
  key_pos : 1 ≤ t.key.toNat
  rsp : t.rsp = some (rspWord .ok (charOf (m.shift l t.key)))

section

variable {s : State} (hs : s.Inv) (hr : s.Ready)
include hs hr

theorem mapperEntry_inv {m : Mode} {l : Card} (hl : 1 ≤ l.toNat ∧ l.toNat ≤ 26) :
    (s.mapperEntry m l).Inv :=
  (hs.ports [] (.inl rfl)).loopEntry (hs.gatesOpen hr) rfl (fun _ => hl) .character

/-- A mapper loop that has come to rest has completed (R129). -/
theorem mapped_of_rest {m : Mode} {l : Card} (hm : m ≠ .keyonly) (hl : 1 ≤ l.toNat ∧ l.toNat ≤ 26)
    {k : Nat} (hrest : (microStep^[k] (s.mapperEntry m l)).busy = false) :
    Mapped m l (microStep^[k] (s.mapperEntry m l)) := by
  have run := LoopRun.iterate (mapperEntry_inv (m := m) hs hr hl) rfl k
  obtain ⟨hletter, hinputs⟩ := iterate_microStep_frame k (s.mapperEntry m l)
  generalize microStep^[k] (s.mapperEntry m l) = t at run hletter hinputs hrest
  obtain ⟨hvalid, hrsp⟩ := run.outcome.resolve_left (by simp [hrest])
  obtain ⟨hdeck, hkey, -⟩ := run.inv.key_valid hvalid
  rw [completionData_of_character (run.mode.trans_ne hm) run.form, run.mode, hletter] at hrsp
  exact ⟨run.inv, run.inv.idle_of_not_busy hrest, hdeck, hinputs, hkey, hrsp⟩

end

namespace Mapped

variable {m : Mode} {l : Card} {t : State} (h : Mapped m l t)
include h

theorem next_inv : { t with rsp := none }.Inv := h.inv.ports t.inputs (.inl rfl)

theorem next_ready : { t with rsp := none }.Ready := ⟨h.idle, h.deckValid, rfl⟩

end Mapped

/-! ### ENCC and DECC as the host sees them (R136, R137) -/

theorem exec_encc_letter {s : State} (ho : s.GatesOpen) {c : Byte} (hc : isLetter c = true) :
    exec (.encc c) s = .next (s.loopEntry .enc .character (letterIndex c)) :=
  cipherGates_of_check_passes ho hc _ _

theorem exec_encc_dropped {s : State} (ho : s.GatesOpen) {c : Byte} (hc : isLetter c = false) :
    exec (.encc c) s = .next { s with rsp := some 0x1000#16 } :=
  (cipherGates_of_check_fails ho hc _ _).trans answer_dropped

theorem exec_decc_upper {s : State} (ho : s.GatesOpen) {c : Byte} (hc : isUpper c = true) :
    exec (.decc c) s = .next (s.loopEntry .dec .character (letterIndex c)) :=
  cipherGates_of_check_passes ho hc _ _

section

variable {s : State} (hs : s.Inv) (hr : s.Ready)
include hs hr

/-- What the host's offer leaves open: the gates of R163. -/
theorem offer_gatesOpen : { s with inputs := [], rsp := none }.GatesOpen := hs.gatesOpen hr

theorem issue_encc_letter {c : Byte} (hc : isLetter c = true) (k : Nat) :
    issue (k + 1) (.encc c) s =
      (microStep^[k] (s.mapperEntry .enc (letterIndex c))).answered :=
  issue_succ hr.not_busy (exec_encc_letter (offer_gatesOpen hs hr) hc) rfl k

theorem issue_decc_upper {c : Byte} (hc : isUpper c = true) (k : Nat) :
    issue (k + 1) (.decc c) s =
      (microStep^[k] (s.mapperEntry .dec (letterIndex c))).answered :=
  issue_succ hr.not_busy (exec_decc_upper (offer_gatesOpen hs hr) hc) rfl k

/-- A letter that was answered was answered by its completed loop. -/
theorem issue_encc_letter_eq_some {c : Byte} (hc : isLetter c = true) {k : Nat} {w : RspWord}
    {u : State} (h : issue k (.encc c) s = some (w, u)) :
    ∃ j t, k = j + 1 ∧ t = microStep^[j] (s.mapperEntry .enc (letterIndex c)) ∧
      Mapped .enc (letterIndex c) t ∧ w = rspWord .ok (charOf (encShift (letterIndex c) t.key)) ∧
      u = { t with rsp := none } := by
  cases k with
  | zero => nomatch (issue_zero _ s).symm.trans h
  | succ j =>
    rw [issue_encc_letter hs hr hc] at h
    obtain ⟨hw, hu⟩ := State.answered_eq_some h
    have hl := letterIndex_legal hc
    have run := LoopRun.iterate (mapperEntry_inv (m := .enc) hs hr hl) rfl j
    have hrest : (microStep^[j] (s.mapperEntry .enc (letterIndex c))).busy = false := by
      by_contra hb
      obtain ⟨-, -, hnone⟩ := run.inv.busy_loop (by simpa using hb)
      nomatch hnone.symm.trans hw
    have mapped := mapped_of_rest (m := .enc) hs hr nofun hl hrest
    exact ⟨j, _, rfl, rfl, mapped, Option.some.inj (hw.symm.trans mapped.rsp), hu⟩

/-- ENCC does not tell a letter from its upper-case form. -/
theorem issue_encc_upperOf {c : Byte} (hc : isLetter c = true) (k : Nat) :
    issue k (.encc (upperOf c)) s = issue k (.encc c) s := by
  cases k with
  | zero => rfl
  | succ k =>
    rw [issue_encc_letter hs hr hc, issue_encc_letter hs hr (isLetter_upperOf hc),
      letterIndex_upperOf hc]

/-- A non-letter is dropped and changes nothing. -/
theorem issue_encc_dropped {c : Byte} (hc : isLetter c = false) (hin : s.inputs = []) (k : Nat) :
    issue (k + 1) (.encc c) s = some (0x1000#16, s) := by
  have hsame : { s with inputs := [], rsp := none } = s := by rw [← hin, ← hr.silent]
  have he := exec_encc_dropped (offer_gatesOpen hs hr) hc
  have hrest : { s with inputs := [], rsp := some 0x1000#16 }.busy = false := hr.not_busy
  rw [issue_succ hr.not_busy he rfl, iterate_microStep_rest hrest, State.answered_of_rsp rfl]
  exact congrArg (fun t => some (_, t)) hsame

end

/-! ### Filtering (R136) -/

/-- Settles O47: a non-letter answers DROPPED and changes nothing, a letter answers OK as its
upper-case form does. -/
theorem encryptionFiltersTheMessage : Obligations.EncryptionFiltersTheMessage := by
  intro k msg s t ws hs hr hin hall
  induction msg generalizing s ws with
  | nil =>
    obtain ⟨rfl, rfl⟩ := Prod.mk.inj (Option.some.inj hall)
    rfl
  | cons c msg ih =>
    obtain ⟨w, u, ws, hi, his, rfl⟩ := issueAll_cons_eq_some hall
    cases hc : isLetter c with
    | true =>
      obtain ⟨j, v, -, -, mapped, rfl, rfl⟩ := issue_encc_letter_eq_some hs hr hc hi
      have rest := ih _ _ mapped.next_inv mapped.next_ready mapped.inputs his
      rw [List.filter_cons_of_pos hc, List.filter_cons_of_pos (by simp [Status.code])]
      exact issueAll_cons ((issue_encc_upperOf hs hr hc k).trans hi) rest
    | false =>
      cases k with
      | zero => nomatch (issue_zero _ s).symm.trans hi
      | succ k =>
        rw [issue_encc_dropped hs hr hc hin] at hi
        obtain ⟨rfl, rfl⟩ := Prod.mk.inj (Option.some.inj hi)
        rw [List.filter_cons_of_neg (by simp [hc]), List.filter_cons_of_neg (by decide)]
        exact ih _ _ hs hr hin his

/-! ### The round trip (R132, R138) -/

/-- Two engines that may take a command, with decks that read the same. -/
structure Paired (s s' : State) : Prop where
  inv : s.Inv
  inv' : s'.Inv
  ready : s.Ready
  ready' : s'.Ready
  view : s.linear = s'.linear

/-- One letter encrypted on one engine and decrypted on the other, both with the same key (R127). -/
theorem Paired.roundTrip {s s' t : State} (h : Paired s s') {c : Byte} (hc : isLetter c = true)
    {k : Nat} {w : RspWord} (hi : issue k (.encc c) s = some (w, t)) :
    (statusField w = 0#4 ∧ isUpper (dataField w) = true) ∧
    ∃ t', issue k (.decc (dataField w)) s' = some (rspWord .ok (upperOf c), t') ∧
      Paired t t' := by
  obtain ⟨j, u, rfl, hu, enc, rfl, rfl⟩ := issue_encc_letter_eq_some h.inv h.ready hc hi
  obtain ⟨hlo, hhi⟩ := letterIndex_legal hc
  have range := encShift_range (letterIndex c) u.key
  have upper := isUpper_charOf range.1 range.2
  rw [statusField_rspWord, dataField_rspWord, issue_decc_upper h.inv' h.ready' upper,
    letterIndex_charOf range.1 range.2]
  have start : SameRunView (s.mapperEntry .enc (letterIndex c))
      (s'.mapperEntry .dec (encShift (letterIndex c) u.key)) := ⟨h.view, rfl, nofun⟩
  obtain ⟨hview, hphase, hkey⟩ := start.iterate j
  rw [← hu] at hview hphase hkey
  have dec := mapped_of_rest h.inv' h.ready' (k := j) (m := .dec) nofun range
    (State.busy_eq_false_iff.mpr (.inl (hphase.symm.trans enc.idle)))
  generalize microStep^[j] (s'.mapperEntry .dec _) = u' at dec hview hkey
  have hback : decShift (encShift (letterIndex c) u.key) u'.key = letterIndex c := by
    rw [← (hkey enc.idle).1]
    exact decShift_encShift hlo hhi enc.key_pos enc.inv.key_le
  refine ⟨⟨rfl, upper⟩, { u' with rsp := none }, ?_,
    ⟨enc.next_inv, dec.next_inv, enc.next_ready, dec.next_ready, hview⟩⟩
  rw [State.answered_of_rsp dec.rsp, Mode.shift, hback]
  rfl

/-- Settles O46: letter after letter, both engines go on with decks that read the same. -/
theorem decryptionRestoresTheMessage : Obligations.DecryptionRestoresTheMessage := by
  intro k msg s s' t ws hs hs' hr hr' hview hmsg hall
  have paired : Paired s s' := ⟨hs, hs', hr, hr', hview⟩
  clear hs hs' hr hr' hview
  induction msg generalizing s s' ws with
  | nil =>
    obtain ⟨rfl, rfl⟩ := Prod.mk.inj (Option.some.inj hall)
    exact ⟨nofun, s', rfl, paired.view.symm⟩
  | cons c msg ih =>
    obtain ⟨w, u, ws, hi, his, rfl⟩ := issueAll_cons_eq_some hall
    obtain ⟨hc, hmsg⟩ := List.forall_mem_cons.mp hmsg
    obtain ⟨hw, u', hi', paired⟩ := paired.roundTrip hc hi
    obtain ⟨hws, t', his', hview⟩ := ih _ _ _ hmsg his paired
    exact ⟨List.forall_mem_cons.mpr ⟨hw, hws⟩, t', issueAll_cons hi' his', hview⟩

end Sys2Proof.Machine
end

section
/-! PROOFS of 45_system.md: NOP and SRST (R150, R151). Neither passes a gate of R163, so each is its
answer OK: NOP on the state it finds, SRST on the state with its registers reset. -/

namespace Sys2Proof.Machine

section

variable {s : State}

/-- OK is no error, so LASTERR keeps its value (R161). -/
theorem answer_ok : answer .ok 0x00#8 s = .next { s with rsp := some 0x0000#16 } :=
  answer_normal rfl _

theorem exec_nop : exec .nop s = answer .ok 0x00#8 s := rfl

theorem exec_srst : exec .srst s = answer .ok 0x00#8 s.resetRegisters := rfl

end

/-- Settles O11: the answer OK writes the response port alone. -/
theorem nopOnlyResponds : Obligations.NopOnlyResponds :=
  fun _ => exec_nop.trans answer_ok

/-- Settles O12: the answer OK to the state with its registers reset, which still has its deck. -/
theorem srstResetsEveryRegisterButTheDeck : Obligations.SrstResetsEveryRegisterButTheDeck :=
  fun _ => exec_srst.trans answer_ok

end Sys2Proof.Machine
end

section
/-! PROOFS of 60_exceptions.md: LASTERR after a step (R161), the reset event (R171, R180 to R182), and
the gates of R163 in their order. -/

namespace Sys2Proof.Machine

/-! ### LASTERR (R161) -/

/-- LASTERR as the response port says it, from the value `old` before the step: the status of an
error response, else `old`. -/
def lastErrAfter (rsp : Option RspWord) (old : BitVec 4) : BitVec 4 :=
  match rsp with
  | some w => if 8 ≤ (statusField w).toNat then statusField w else old
  | none => old

@[simp] theorem lastErrAfter_none (old : BitVec 4) : lastErrAfter none old = old := rfl

theorem lastErrAfter_error {w : RspWord} (h : 8 ≤ (statusField w).toNat) (old : BitVec 4) :
    lastErrAfter (some w) old = statusField w := if_pos h

theorem lastErrAfter_normal {w : RspWord} (h : (statusField w).toNat < 8) (old : BitVec 4) :
    lastErrAfter (some w) old = old := if_neg (Nat.not_le.mpr h)

/-- A response of the engine is told by its word as by its status. -/
@[simp] theorem lastErrAfter_rspWord (st : Status) (d : Byte) (old : BitVec 4) :
    lastErrAfter (some (rspWord st d)) old = nextLastErr st old := by
  simp [lastErrAfter, nextLastErr, Status.isError]

/-- Every response of the engine goes with the LASTERR it writes. -/
theorem State.respond_lastErrAfter (s : State) (st : Status) (d : Byte) :
    (s.respond st d).lastErr = lastErrAfter (s.respond st d).rsp s.lastErr :=
  (lastErrAfter_rspWord st d s.lastErr).symm

theorem State.raiseCorrupt_lastErrAfter (s : State) (v : Card) :
    (s.raiseCorrupt v).lastErr = lastErrAfter (s.raiseCorrupt v).rsp s.lastErr :=
  State.respond_lastErrAfter ..

theorem Transform.run_lastErr {m : Transform} {s t : State} (h : m.run s = .ok t) :
    t.lastErr = s.lastErr := by
  rw [Transform.run_frame h]

theorem Transform.run_rsp {m : Transform} {s t : State} (h : m.run s = .ok t) :
    t.rsp = s.rsp := by
  rw [Transform.run_frame h]

/-- Of all commands only SRST writes LASTERR otherwise than by its response. -/
theorem Effect.lastErr {s t : State} {i : Instr} (e : Effect s i t) (hr : s.rsp = none) :
    t.lastErr = lastErrAfter t.rsp s.lastErr ∨ (i = .srst ∧ t.rsp = some 0x0000#16) := by
  cases e with
  | resets => exact .inr ⟨rfl, rfl⟩
  | transforms m t _ hm => exact .inl (by simp [Transform.run_lastErr hm])
  | entersLoop => exact .inl (by simp [hr])
  | corrupts m v => exact .inl (s.raiseCorrupt_lastErrAfter v)
  | extracts => exact .inl (by simp)
  | responds | closesLoad | opensLoad | dropsDeck | storesCard | completesLoad =>
    exact .inl (State.respond_lastErrAfter ..)

/-- A micro-step writes LASTERR by its response alone. -/
theorem MicroEffect.lastErr {s t : State} (e : MicroEffect s t) (hr : s.rsp = none) :
    t.lastErr = lastErrAfter t.rsp s.lastErr := by
  cases e with
  | transforms m t _ hm => simp [Transform.run_lastErr hm, Transform.run_rsp hm, hr]
  | corrupts m v => exact s.raiseCorrupt_lastErrAfter v
  | completes | retries => simp [hr]

/-- With no response waiting a step writes LASTERR by its own response, or is a reset or an
accepted SRST. -/
theorem StepEffect.lastErr {s t : State} (e : StepEffect s t) (hr : s.rsp = none) :
    t.lastErr = lastErrAfter t.rsp s.lastErr ∨ (s.rst = true ∧ t.rsp = none) ∨
      (s.cmdReady = true ∧ s.offered = some 0x0100#16 ∧ t.rsp = some 0x0000#16) := by
  cases e with
  | resets hrst => exact .inr (.inl ⟨hrst, rfl⟩)
  | runs _ _ _ e => exact .inl (by simpa using e.lastErr (by simpa using hr))
  | passes rsp inputs hrsp =>
    obtain rfl : rsp = none := hrsp.elim id (·.trans hr)
    exact .inl rfl
  | executes w i _ hready ho hd e =>
    obtain h | ⟨rfl, ht⟩ := e.lastErr hr
    · exact .inl h
    · have hw : w = 0x0100#16 := (encode_of_decode hd).symm
      exact .inr (.inr ⟨hready, hw ▸ ho, ht⟩)
  | rejects => exact .inl (State.respond_lastErrAfter ..)

/-- Settles O50: the three ways a step writes LASTERR, against the three clauses of the rule. -/
theorem lastErrFollowsTheErrorResponses : Obligations.LastErrFollowsTheErrorResponses := by
  intro s t h hr
  obtain follows | ⟨hrst, hnone⟩ | ⟨hready, ho, hok⟩ := (step_effect h).lastErr hr
  · exact ⟨fun w hw he => by rw [follows, hw, lastErrAfter_error he],
      fun w hw hn _ => by rw [follows, hw, lastErrAfter_normal hn],
      fun hnone _ => by rw [follows, hnone, lastErrAfter_none]⟩
  · exact ⟨fun w hw => (nomatch hnone.symm.trans hw), fun w hw => (nomatch hnone.symm.trans hw),
      fun _ hrst' => (nomatch hrst.symm.trans hrst')⟩
  · refine ⟨fun w hw he => ?_, fun _ _ _ hsrst => absurd ⟨hready, ho⟩ hsrst,
      fun hnone => (nomatch hnone.symm.trans hok)⟩
    obtain rfl : 0x0000#16 = w := Option.some.inj (hok.symm.trans hw)
    exact absurd he (by decide)

/-! ### The reset event (R171, R180 to R182) -/

theorem step_of_rst {s : State} (h : s.rst = true) : step s = .next s.hardReset := if_pos h

/-- Settles O9: reset is tested before everything else, the running loop included. -/
theorem resetWinsInEveryState : Obligations.ResetWinsInEveryState :=
  fun s h => ⟨s.hardReset, step_of_rst h, rfl⟩

/-! ### The gates in their order (R163, R164) -/

section

variable {s : State}

theorem fatalGate_closed (h : s.fatal = true) (k : Result) :
    fatalGate s k = answer .errFatal 0x00#8 s := if_pos h

theorem loadingGate_closed (h : s.loading = true) (k : Result) :
    loadingGate s k = answer .errCfgLen (zext s.ldcnt) { s with loading := false } := if_pos h

theorem deckGate_closed (h : s.deckValid = false) (k : Result) :
    deckGate s k = answer .errNodeck 0x00#8 s := by
  simp [deckGate, h]

variable {i : Instr}

/-- A command that needs a deck stands behind all three gates (R164). -/
theorem exec_behind_cipherGates (hnop : i ≠ .nop) (hsrst : i ≠ .srst) (hrdr : ∀ r, i ≠ .rdr r)
    (hcard : ∀ v, i ≠ .card v) (hload : i ≠ .load) : ∃ k, exec i s = cipherGates s k := by
  cases i with
  | nop => exact absurd rfl hnop
  | srst => exact absurd rfl hsrst
  | rdr r => exact absurd rfl (hrdr r)
  | card v => exact absurd rfl (hcard v)
  | load => exact absurd rfl hload
  | ja | jb | tc | cc | ex | key | enci | deci | encc | decc | rdp | rds | find => exact ⟨_, rfl⟩

/-- LOAD too can abort a load (R163). -/
theorem exec_behind_loadingGate (hnop : i ≠ .nop) (hsrst : i ≠ .srst) (hrdr : ∀ r, i ≠ .rdr r)
    (hcard : ∀ v, i ≠ .card v) : ∃ k, exec i s = fatalGate s (loadingGate s k) := by
  by_cases hload : i = .load
  · exact hload ▸ ⟨_, rfl⟩
  · obtain ⟨k, e⟩ := exec_behind_cipherGates (s := s) hnop hsrst hrdr hcard hload
    exact ⟨deckGate s k, e⟩

/-- CARD too is refused while FATAL is set (R164). -/
theorem exec_behind_fatalGate (hnop : i ≠ .nop) (hsrst : i ≠ .srst) (hrdr : ∀ r, i ≠ .rdr r) :
    ∃ k, exec i s = fatalGate s k := by
  by_cases hcard : ∃ v, i = .card v
  · obtain ⟨v, rfl⟩ := hcard
    exact ⟨_, rfl⟩
  · obtain ⟨k, e⟩ := exec_behind_loadingGate (s := s) hnop hsrst hrdr fun v hv => hcard ⟨v, hv⟩
    exact ⟨loadingGate s k, e⟩

end

/-- Settles O14: the first closed gate answers, whatever the command behind it. -/
theorem gatesRefuseInTheirOrder : Obligations.GatesRefuseInTheirOrder := by
  intro i s hnop hsrst hrdr
  refine ⟨fun hf => ?fatal, fun hcard hf hl => ?loading, fun hcard hload hf hl hd => ?deck⟩
  case fatal =>
    obtain ⟨k, e⟩ := exec_behind_fatalGate (s := s) hnop hsrst hrdr
    rw [e, fatalGate_closed hf]
    exact answer_error rfl _
  case loading =>
    obtain ⟨k, e⟩ := exec_behind_loadingGate (s := s) hnop hsrst hrdr hcard
    rw [e, fatalGate_open hf, loadingGate_closed hl]
    exact answer_error rfl _
  case deck =>
    obtain ⟨k, e⟩ := exec_behind_cipherGates (s := s) hnop hsrst hrdr hcard hload
    rw [e, cipherGates, fatalGate_open hf, loadingGate_open hl, deckGate_closed hd]
    exact answer_error rfl _

end Sys2Proof.Machine
end

section
/-! PROOFS of 70_reset_and_hazards.md: the reset state, and slots that no load has written (R181).
Unwritten slots are a hidden layout of the deck under one anchor: what R45 says of a layout is said
of them, and what remains is ANCHOR and the two commands R45 leaves out, RDS and RDR 1. -/

namespace Sys2Proof.Machine

section

variable {s s' t t' : State}

/-! ### Unseen decks are hidden layouts under one anchor -/

theorem UnseenDeck.refl (s : State) : UnseenDeck s s := ⟨rfl, fun _ => rfl, fun _ _ _ => rfl⟩

theorem UnseenDeck.anchor_eq (h : UnseenDeck s s') : s'.anchor = s.anchor := by rw [h.registers]

theorem UnseenDeck.eq_of_deckValid (h : UnseenDeck s s') (hv : s.deckValid = true) : s' = s :=
  h.registers.trans (by rw [← h.valid hv])

theorem UnseenDeck.sameView (h : UnseenDeck s s') : SameView s s' where
  registers := by rw [h.anchor_eq]; exact h.registers
  view hv := by rw [h.eq_of_deckValid hv]
  loaded := h.loaded

theorem deck_eq_of_linear_eq (h : s.linear = s'.linear) (ha : s'.anchor = s.anchor) :
    s.deck = s'.deck := by
  have slots : ∀ j : Fin 28, s.deck[j] = s'.deck[j] := fun j => by
    rw [deck_eq_cardAt, deck_eq_cardAt, ha, cardAt_congr h (posOf_pos ..) (posOf_le ..)]
  exact Vector.ext fun i hi => slots ⟨i, hi⟩

theorem SameView.unseenDeck (h : SameView s s') (ha : s'.anchor = s.anchor) : UnseenDeck s s' where
  registers := by rw [← ha]; exact h.registers
  valid hv := deck_eq_of_linear_eq (h.view hv) ha
  loaded := h.loaded

theorem UnseenDeck.passTime (h : UnseenDeck s s') : UnseenDeck s.passTime s'.passTime :=
  h.sameView.passTime.unseenDeck (by simpa using h.anchor_eq)

theorem UnseenDeck.dropInput (h : UnseenDeck s s') : UnseenDeck s.dropInput s'.dropInput :=
  h.sameView.dropInput.unseenDeck h.anchor_eq

theorem UnseenDeck.serveResponse (h : UnseenDeck s s') :
    UnseenDeck s.serveResponse s'.serveResponse :=
  h.sameView.serveResponse.unseenDeck (by simpa using h.anchor_eq)

theorem UnseenDeck.respond (h : UnseenDeck s s') (st : Status) (d : Byte) :
    UnseenDeck (s.respond st d) (s'.respond st d) :=
  (h.sameView.respond st d).unseenDeck h.anchor_eq

theorem UnseenDeck.hardReset (h : UnseenDeck s s') : UnseenDeck s.hardReset s'.hardReset :=
  h.sameView.hardReset.unseenDeck rfl

theorem UnseenDeck.resetRegisters (h : UnseenDeck s s') :
    UnseenDeck s.resetRegisters s'.resetRegisters :=
  h.sameView.resetRegisters.unseenDeck rfl

/-! ### The commands while no deck is valid -/

/-- Without a valid deck a command other than SRST writes ANCHOR only where it completes a load
(R13, R82). -/
theorem Effect.anchor_of_no_deck {i : Instr} (e : Effect s i t) (hi : i ≠ .srst)
    (hv : s.deckValid = false) :
    t.anchor = if t.deckValid then 27#5 else s.anchor := by
  cases e with
  | resets => exact absurd rfl hi
  | completesLoad => rfl
  | responds | closesLoad | storesCard => simp [hv]
  | opensLoad | dropsDeck => rfl
  | transforms _ _ ho | corrupts _ _ ho | extracts _ _ ho | entersLoop _ _ _ _ ho =>
    obtain ⟨-, -, hv'⟩ := ho
    exact nomatch hv.symm.trans hv'

/-- RDR reads no slot (R26). -/
theorem UnseenDeck.execRdr (h : UnseenDeck s s') (r : Byte) :
    SameOutcome (execRdr r s) (execRdr r s') := by
  have read : readRegister s' r.toNat = readRegister s r.toNat := by rw [h.registers]; rfl
  unfold Machine.execRdr
  rw [read]
  split
  · exact h.sameView.answer ..
  · exact h.sameView.answer ..

/-- RDS, the one command that reads a physical slot, is refused without a valid deck (R91, R163). -/
theorem UnseenDeck.execRds (h : UnseenDeck s s') (hv : s.deckValid = false) (n : Byte) :
    SameOutcome (execRds n s) (execRds n s') :=
  h.sameView.cipherGates fun _ hv' => nomatch hv.symm.trans hv'

theorem UnseenDeck.exec_sameOutcome (h : UnseenDeck s s') (hwf : s.Wf) (hv : s.deckValid = false)
    (i : Instr) : SameOutcome (exec i s) (exec i s') := by
  by_cases hrds : ∃ n, i = .rds n
  · obtain ⟨n, rfl⟩ := hrds
    exact h.execRds hv n
  by_cases hrdr : i = .rdr 1#8
  · exact hrdr ▸ h.execRdr 1#8
  · exact h.sameView.exec hwf (fun n e => hrds ⟨n, e⟩) hrdr

/-! ### Steps -/

/-- Both runs answer, and only unseen slots differ afterwards. -/
def UnseenOutcome (r r' : Result) : Prop :=
  ∃ t t', r = .next t ∧ r' = .next t' ∧ UnseenDeck t t'

theorem UnseenDeck.outcome (h : UnseenDeck t t') : UnseenOutcome (.next t) (.next t') :=
  ⟨t, t', rfl, rfl, h⟩

theorem UnseenDeck.exec (h : UnseenDeck s s') (hwf : s.Wf) (hv : s.deckValid = false) (i : Instr) :
    UnseenOutcome (exec i s) (exec i s') := by
  by_cases hi : i = .srst
  · subst hi
    exact (h.resetRegisters.respond .ok 0x00#8).outcome
  · obtain ⟨t, t', e, e', ht⟩ := h.exec_sameOutcome hwf hv i
    have hv' : s'.deckValid = false := by rw [h.registers]; exact hv
    have valid : t'.deckValid = t.deckValid := by rw [ht.registers]
    refine ⟨t, t', e, e', ht.unseenDeck ?_⟩
    rw [(exec_effect e).anchor_of_no_deck hi hv, (exec_effect e').anchor_of_no_deck hi hv', valid,
      h.anchor_eq]

theorem UnseenDeck.runWord (h : UnseenDeck s s') (hwf : s.Wf) (hv : s.deckValid = false)
    (w : CmdWord) : UnseenOutcome (runWord w s) (runWord w s') := by
  unfold Machine.runWord
  split
  · exact h.exec hwf hv _
  · exact (h.respond .errIllegal 0x00#8).outcome

/-- Without a valid deck no loop runs, and of the other events only a command can read a slot. -/
theorem UnseenDeck.step_of_no_deck (h : UnseenDeck s s') (hwf : s.Wf) (hv : s.deckValid = false) :
    UnseenOutcome (step s) (step s') := by
  have hbusy : s.busy = false := Bool.eq_false_iff.mpr fun hb => by
    obtain ⟨hv', -⟩ := hwf.busy_loop hb
    exact nomatch hv.symm.trans hv'
  have hrst : s'.rst = s.rst := by rw [h.registers]; rfl
  have hbusy' : s'.busy = false := by rw [h.registers]; exact hbusy
  have hrsp : s'.rsp = s.rsp := by rw [h.registers]
  have hoffered : s'.offered = s.offered := by rw [h.registers]; rfl
  unfold Machine.step
  rw [hrst, hbusy, hbusy', hrsp, hoffered]
  split
  · exact h.hardReset.outcome
  rw [if_neg Bool.false_ne_true, if_neg Bool.false_ne_true]
  split
  · exact h.serveResponse.outcome
  split
  · exact h.dropInput.runWord (hwf.ports s.inputs.tail (.inr rfl)) hv _
  · exact h.passTime.outcome

/-- The slots of a valid deck are all written, so states that differ in a slot have no valid deck. -/
theorem UnseenDeck.step (h : UnseenDeck s s') (hwf : s.Wf) : UnseenOutcome (step s) (step s') := by
  cases hv : s.deckValid with
  | true =>
    obtain rfl := h.eq_of_deckValid hv
    obtain ⟨t, e⟩ := step_answers hwf.loading_lt
    exact ⟨t, t, e, e, .refl t⟩
  | false => exact h.step_of_no_deck hwf hv

end

/-- Settles O58: where a deck is valid the two states are one, and where none is valid only CARD
reads a slot, and only a written one; the response is one of the registers that agree. -/
theorem unwrittenSlotsAreUnobservable : Obligations.UnwrittenSlotsAreUnobservable := by
  intro s s' hwf h
  obtain ⟨t, t', e, e', ht⟩ := h.step hwf
  exact ⟨t, t', e, e', ht, by rw [ht.registers]⟩

/-- Settles O10: each register and each output of the reset state, by evaluation. -/
theorem resetStateHoldsTheListedValues : Obligations.ResetStateHoldsTheListedValues :=
  ⟨rfl, rfl, rfl, rfl, rfl, rfl⟩

end Sys2Proof.Machine
end
